-- ==== Sys2Proof/Word.lean ====
section
/-! DEFINITION. The width `ARGW` (00_scope.md R5) and the machine word: one `ARGW`-bit
two's-complement integer (10_state.md R10). Every comparison and sum of the PTD is made on the
integer a word holds (`BitVec.toInt`), never on its bit pattern (00_scope.md section 5.1). -/

namespace Sys2Proof

/-- The parameter `ARGW`, at the value taken (R5, D2): R30 and R33 make a word 32 bits, and R15,
R46, R47 and R48 number its bits 31 to 0 (log entry 17). -/
abbrev Config.argw : Nat := 32

/-- One `ARGW`-bit word (R5, R10, R30). -/
abbrev Word := BitVec Config.argw

/-- One word of the pin port: 32 bits, whatever `ARGW` is (30_encoding.md R49). -/
abbrev PortWord := BitVec 32

end Sys2Proof
end

