-- ==== Sys2Proof/Config.lean ====
section
/-! DEFINITION. What is fixed for the machine: the constants of 00_scope.md R2 to R4, the open
parameters of R5, and the free values of 93_implementation_defined.md, which are constants
without a body. -/

namespace Sys2Proof

/-- `MAX_PULSE_LENGTH`, in microseconds (R2). -/
abbrev Config.maxPulseLength : Nat := 100000

/-- `MAX_PULSE_COUNT`, in pulse words; also the capacity of `PMEM` (R2, R11). -/
abbrev Config.maxPulseCount : Nat := 1000

/-- `MAX_TX_TIME`, in milliseconds (R2). -/
abbrev Config.maxTxTime : Nat := 2000

/-- `MAX_TX_REPEATS` (R2). -/
abbrev Config.maxTxRepeats : Nat := 20

/-- `DEFAULT_REPEATS` (R2). -/
abbrev Config.defaultRepeats : Nat := 4

/-- `PIN_MIN` (R3). -/
abbrev Config.pinMin : Nat := 2

/-- `PIN_MAX` (R3). -/
abbrev Config.pinMax : Nat := 27

/-- `SUM_LIMIT` = `MAX_TX_TIME` * 1000, in microseconds (R4). -/
abbrev Config.sumLimit : Nat := Config.maxTxTime * 1000

/-- How the clock answers (42_timing.md): `a` is the source's law alone, any answer not below
the previous one (R98); `b` reads true time, `floor(TUS / 1000)` (R102). -/
inductive ClockLevel where
  | a
  | b
deriving DecidableEq, Repr

/-- `ERRCODE`, the code of each of the seven error kinds (60_exceptions.md R130, D3). -/
structure ErrCodes where
  /-- Of `InvalidGpio`. -/
  invalidGpio : Word
  /-- Of `InvalidRepeats`. -/
  invalidRepeats : Word
  /-- Of `InvalidPulseCount`. -/
  invalidPulseCount : Word
  /-- Of `PulseTrainOdd`. -/
  pulseTrainOdd : Word
  /-- Of `InvalidPulseLength`. -/
  invalidPulseLength : Word
  /-- Of `InvalidTxTime`. -/
  invalidTxTime : Word
  /-- Of `Unknown`. -/
  unknown : Word
deriving DecidableEq, Repr

/-- `ERRCODE` at the values taken: minus the kind's position in the taxonomy (R5, R130). -/
def Config.errCodes : ErrCodes where
  invalidGpio := -1
  invalidRepeats := -2
  invalidPulseCount := -3
  pulseTrainOdd := -4
  invalidPulseLength := -5
  invalidTxTime := -6
  unknown := -7

/-- `OPCODE` and `LEVELCODE`, the codes in a word of the pin port (30_encoding.md R49, R50,
D16): the field `op` of each primitive operation, and the bit of each level. -/
structure PortCodes where
  /-- `op` of `SETUP`. -/
  setup : BitVec 3
  /-- `op` of `CFG`. -/
  cfg : BitVec 3
  /-- `op` of `WR`. -/
  wr : BitVec 3
  /-- `op` of `DLY`. -/
  dly : BitVec 3
  /-- `op` of `NOW`. -/
  now : BitVec 3
  /-- The level `HIGH`. -/
  high : BitVec 1
  /-- The level `LOW`. -/
  low : BitVec 1
deriving DecidableEq, Repr

/-- `OPCODE` and `LEVELCODE` at the values taken (R5, R49, R50). -/
def Config.portCodes : PortCodes where
  setup := 0
  cfg := 1
  wr := 2
  dly := 3
  now := 4
  high := 1
  low := 0

/-! The register offsets of 20_memory.md R33, from `BASE` (R5, D1). -/

/-- Offset of `CTRL`. -/
abbrev Config.offCtrl : Nat := 0x000
/-- Offset of `STATUS`. -/
abbrev Config.offStatus : Nat := 0x004
/-- Offset of `PIN`. -/
abbrev Config.offPin : Nat := 0x008
/-- Offset of `REPEATS`. -/
abbrev Config.offRepeats : Nat := 0x00C
/-- Offset of `COUNT`. -/
abbrev Config.offCount : Nat := 0x010
/-- Offset of `RESULT`. -/
abbrev Config.offResult : Nat := 0x014
/-- Offset of `RCOUNT`. -/
abbrev Config.offRcount : Nat := 0x018
/-- The reserved offset that reads 0 and ignores writes. -/
abbrev Config.offReserved : Nat := 0x01C
/-- Offset of `C_MAXPLEN`, the first of the seven constant registers. -/
abbrev Config.offMaxPulseLength : Nat := 0x020
/-- Offset of `C_MAXPCNT`. -/
abbrev Config.offMaxPulseCount : Nat := 0x024
/-- Offset of `C_MAXTXTIME`. -/
abbrev Config.offMaxTxTime : Nat := 0x028
/-- Offset of `C_MAXREP`. -/
abbrev Config.offMaxTxRepeats : Nat := 0x02C
/-- Offset of `C_DEFREP`. -/
abbrev Config.offDefaultRepeats : Nat := 0x030
/-- Offset of `C_PINMIN`. -/
abbrev Config.offPinMin : Nat := 0x034
/-- Offset of `C_PINMAX`, the last register. -/
abbrev Config.offPinMax : Nat := 0x038
/-- The first offset above the registers, which has no meaning. -/
abbrev Config.offRegistersEnd : Nat := 0x03C
/-- Offset of `PMEM[0]`. -/
abbrev Config.offPmem : Nat := 0x1000
/-- The first offset above `PMEM`. -/
abbrev Config.offPmemEnd : Nat := 0x1FA0

/-- The parameters a model takes as an argument (R5, D8). They stand in the state, where no
step writes them, so that a statement over every state is a statement over every value. -/
structure Params where
  /-- The law the clock follows. -/
  level : ClockLevel
  /-- `OVH_STEP`: the most microseconds a step or primitive other than a delay adds (R101). -/
  ovhStep : Nat
  /-- `OVH_DLY`: the most microseconds by which a delay is too long (R100). -/
  ovhDly : Nat
  /-- `BASE`: the address of the register at offset 0 (20_memory.md R33). -/
  base : Nat
  /-- `ERRCODE` (R130). -/
  errCodes : ErrCodes
  /-- `OPCODE` and `LEVELCODE` (R49, R50). -/
  portCodes : PortCodes
deriving DecidableEq, Repr

/-- FREE VALUE. The environment's draw number `n`, where the state's `oracle` names none: an
overhead, a clock answer, the answer of `setup()`, a pin level and so on (log entry 4). -/
opaque Config.free (n : Nat) : Nat

/-- FREE VALUE. What `PMEM[i]` holds after reset number `epoch` before the host has written it
(10_state.md R26, U6; log entry 5). -/
opaque Config.pmemUnspecified (epoch i : Nat) : Word

/-- FREE VALUE. What a host read of `RESULT` or `RCOUNT` at byte offset `off` returns while
`DONE` = 0, `n` draws after reset (20_memory.md R32, U7; log entry 6). -/
opaque Config.earlyRead (off n : Nat) : Word

/-- FREE VALUE. `OVH_STEP` of the machine right after reset (R5: OPEN; log entry 7). -/
opaque Config.ovhStep : Nat

/-- FREE VALUE. `TUS0`, true time at reset: any natural number (R5, R99; log entry 7). -/
opaque Config.tus0 : Nat

end Sys2Proof
end

