-- ==== Sys2Proof/Syntax.lean ====
section
/-! DEFINITION. The PTD's operations, one constructor per row of spec/opcode_table.json
(30_encoding.md section 5), and the names they are built from. -/

namespace Sys2Proof

/-- A pin level (30_encoding.md R50). -/
inductive Level where
  | low
  | high
deriving DecidableEq, Repr

/-- The sequencer phases (10_state.md R12). -/
inductive Phase where
  | idle | iSetup
  | vPin | vRep | vCnt | vPar | vLen | vSum
  | eCfg | eStamp0 | eHold | eBudget | eDeassert | eStamp1
deriving DecidableEq, Repr

/-- The seven error kinds (60_exceptions.md R130). `unknown` is reserved: nothing raises it
(R137). -/
inductive ErrorKind where
  | invalidGpio | invalidRepeats | invalidPulseCount | pulseTrainOdd
  | invalidPulseLength | invalidTxTime | unknown
deriving DecidableEq, Repr

/-- The operations: host commands (format C), pulse instructions (format P), primitive
operations (format O), checker and scheduler operations (format PHASE). -/
inductive Instr where
  /-- `TX`, 43_interfaces.md R110. -/
  | tx
  /-- `INIT`, R113. -/
  | init
  /-- `TX.default`, the pseudo-instruction of 30_encoding.md R55. -/
  | txDefault
  /-- `HOLDH d`, 41_engine.md R79. -/
  | holdH (d : BitVec 17)
  /-- `HOLDL d`, R80. -/
  | holdL (d : BitVec 17)
  /-- `SETUP`, 43_interfaces.md R118. -/
  | setup
  /-- `CFG p`, R114. -/
  | cfg (p : BitVec 5)
  /-- `WR p, l`, R115. -/
  | wr (p : BitVec 5) (l : Level)
  /-- `DLY d`, R116. -/
  | dly (d : BitVec 17)
  /-- `NOW`, R117. -/
  | now
  /-- `CHK.PIN`, 40_validator.md R61. -/
  | chkPin
  /-- `CHK.REP`, R62. -/
  | chkRep
  /-- `CHK.CNT`, R63. -/
  | chkCnt
  /-- `CHK.PAR`, R64. -/
  | chkPar
  /-- `CHK.LEN`, R65. -/
  | chkLen
  /-- `CHK.SUM`, R66. -/
  | chkSum
  /-- `ENG.CFG`, 41_engine.md R77. -/
  | engCfg
  /-- `ENG.STAMP0`, R78. -/
  | engStamp0
  /-- `ENG.HOLD`, R84. -/
  | engHold
  /-- `ENG.BUDGET`, R81. -/
  | engBudget
  /-- `ENG.DEASSERT`, R82. -/
  | engDeassert
  /-- `ENG.STAMP1`, R83. -/
  | engStamp1
deriving DecidableEq, Repr

end Sys2Proof
end

