-- ==== Sys2Proof/WellFormed.lean ====
section
/-! DEFINITION. The operand ranges the encodings admit (30_encoding.md R46, R49): a pin is 2 to
27, a duration is 1 to 100000. -/

namespace Sys2Proof

/-- A pin field of format O is legal: 2 to 27 (R3, R49). -/
def legalPinField (p : BitVec 5) : Bool :=
  Config.pinMin ≤ p.toNat && p.toNat ≤ Config.pinMax

/-- A duration field of format P or O is legal: 1 to 100000 (R46, R49). -/
def legalDuration (d : BitVec 17) : Bool :=
  1 ≤ d.toNat && d.toNat ≤ Config.maxPulseLength

/-- Every operand of the instruction is in its legal range. -/
def WellFormed : Instr → Bool
  | .holdH d => legalDuration d
  | .holdL d => legalDuration d
  | .cfg p => legalPinField p
  | .wr p _ => legalPinField p
  | .dly d => legalDuration d
  | .tx | .init | .txDefault | .setup | .now => true
  | .chkPin | .chkRep | .chkCnt | .chkPar | .chkLen | .chkSum => true
  | .engCfg | .engStamp0 | .engHold | .engBudget | .engDeassert | .engStamp1 => true

end Sys2Proof
end

