-- ==== Sys2Proof/Decode.lean ====
section
/-! DEFINITION. The encodings of 30_encoding.md and their decoders, total on every word and
rejecting by name, and the encoder, over the codes `OPCODE` and `LEVELCODE` (R5, D16). There
are four places an operation's code stands in, so a
code says which: the word written to `CTRL` (format C, R48), the word on the pin port (format
O, R49), the pulse pattern `i[0] ++ PMEM[i]` (format P, R46), the phase code (R53). No code is
split into bytes: the hardware has no byte order (20_memory.md R30). -/

namespace Sys2Proof

/-- Why a code is no operation (R52). -/
inductive DecodeError where
  /-- A `CTRL` value other than 1 and 2 (R48, R52, U5). -/
  | reservedCommand
  /-- A pin-port word that no row of R49 gives. -/
  | reservedPrimitive
  /-- A pulse word with a bit of `w[31:17]` set (R46). -/
  | notPulseWord
  /-- Phase code 0, at which nothing runs, or the reserved codes 14 and 15 (R53). -/
  | noPhaseOperation
deriving DecidableEq, Repr

/-- An operation's code and the place it stands in (30_encoding.md section 1). -/
inductive Code where
  /-- Format C: the value written to `CTRL`. -/
  | command (w : Word)
  /-- Format O: the word on the pin port. -/
  | primitive (w : PortWord)
  /-- Format P: `i[0] ++ w[31:0]`. -/
  | pulse (x : BitVec 33)
  /-- Format PHASE: the sequencer's phase code. -/
  | phase (c : BitVec 4)
deriving DecidableEq, Repr

/-- `LEVELCODE` (R50). -/
def levelCode (k : PortCodes) : Level → BitVec 1
  | .low => k.low
  | .high => k.high

/-- The level a bit codes (R50). -/
def levelOfCode (k : PortCodes) (b : BitVec 1) : Level := if b = k.high then .high else .low

/-- The phase codes 0 to 13 (R53). -/
def phaseCode : Phase → BitVec 4
  | .idle => 0
  | .iSetup => 1
  | .vPin => 2
  | .vRep => 3
  | .vCnt => 4
  | .vPar => 5
  | .vLen => 6
  | .vSum => 7
  | .eCfg => 8
  | .eStamp0 => 9
  | .eHold => 10
  | .eBudget => 11
  | .eDeassert => 12
  | .eStamp1 => 13

/-- The phase a code names; 14 and 15 name none (R53). -/
def phaseOfCode (c : BitVec 4) : Option Phase :=
  match c.toNat with
  | 0 => some .idle
  | 1 => some .iSetup
  | 2 => some .vPin
  | 3 => some .vRep
  | 4 => some .vCnt
  | 5 => some .vPar
  | 6 => some .vLen
  | 7 => some .vSum
  | 8 => some .eCfg
  | 9 => some .eStamp0
  | 10 => some .eHold
  | 11 => some .eBudget
  | 12 => some .eDeassert
  | 13 => some .eStamp1
  | _ => none

/-- The operation of a phase (R12, R53). `I_SETUP` is `INIT`'s own internal step (section 5 of
30_encoding.md), so its operation is `INIT` itself: DEDUCED, log entry 10. -/
def phaseOperation : Phase → Option Instr
  | .idle => none
  | .iSetup => some .init
  | .vPin => some .chkPin
  | .vRep => some .chkRep
  | .vCnt => some .chkCnt
  | .vPar => some .chkPar
  | .vLen => some .chkLen
  | .vSum => some .chkSum
  | .eCfg => some .engCfg
  | .eStamp0 => some .engStamp0
  | .eHold => some .engHold
  | .eBudget => some .engBudget
  | .eDeassert => some .engDeassert
  | .eStamp1 => some .engStamp1

/-- Format C (R48): 1 is `TX`, 2 is `INIT`, every other value is reserved. -/
def decodeCommand (w : Word) : Except DecodeError Instr :=
  if w = 1 then .ok .tx
  else if w = 2 then .ok .init
  else .error .reservedCommand

/-- Format O, `op[31:29] ++ pin[28:24] ++ arg[23:0]` (R49). A field the row gives as 0 must be
0; an op that is no operation's code is reserved. -/
def decodePrimitive (k : PortCodes) (w : PortWord) : Except DecodeError Instr :=
  let op := w.extractLsb' 29 3
  let pin := w.extractLsb' 24 5
  let arg := w.extractLsb' 0 24
  if op = k.setup then
    if pin = 0 ∧ arg = 0 then .ok .setup else .error .reservedPrimitive
  else if op = k.cfg then
    if arg = 0 then .ok (.cfg pin) else .error .reservedPrimitive
  else if op = k.wr then
    if arg.extractLsb' 1 23 = 0 then .ok (.wr pin (levelOfCode k (arg.extractLsb' 0 1)))
    else .error .reservedPrimitive
  else if op = k.dly then
    if pin = 0 ∧ arg.extractLsb' 17 7 = 0 then .ok (.dly (arg.extractLsb' 0 17))
    else .error .reservedPrimitive
  else if op = k.now then
    if pin = 0 ∧ arg = 0 then .ok .now else .error .reservedPrimitive
  else .error .reservedPrimitive

/-- Format P (R46): bit 32, the low bit of the index, selects the operation; `w[31:17]` is 0
and `w[16:0]` is the duration. -/
def decodePulse (x : BitVec 33) : Except DecodeError Instr :=
  if x.extractLsb' 17 15 = 0 then
    if x.extractLsb' 32 1 = 0 then .ok (.holdH (x.extractLsb' 0 17))
    else .ok (.holdL (x.extractLsb' 0 17))
  else .error .notPulseWord

/-- Format PHASE (R53). -/
def decodePhase (c : BitVec 4) : Except DecodeError Instr :=
  match (phaseOfCode c).bind phaseOperation with
  | some i => .ok i
  | none => .error .noPhaseOperation

/-- The operation a code stands for, or why it stands for none. -/
def decode (k : PortCodes) : Code → Except DecodeError Instr
  | .command w => decodeCommand w
  | .primitive w => decodePrimitive k w
  | .pulse x => decodePulse x
  | .phase c => decodePhase c

/-- The code of an operation, from the tables of R46 (index bit at bit 32, duration at bit 0),
R48, R49 (op at bit 29, pin at bit 24, level or duration at bit 0) and R53. `TX.default` has the
`CTRL` word of `TX` (R55), so that word decodes to `TX`. -/
def encode (k : PortCodes) : Instr → Code
  | .tx => .command 1
  | .init => .command 2
  | .txDefault => .command 1
  | .holdH d => .pulse (BitVec.ofNat 33 d.toNat)
  | .holdL d => .pulse (BitVec.ofNat 33 (2 ^ 32 + d.toNat))
  | .setup => .primitive (BitVec.ofNat 32 (k.setup.toNat * 2 ^ 29))
  | .cfg p => .primitive (BitVec.ofNat 32 (k.cfg.toNat * 2 ^ 29 + p.toNat * 2 ^ 24))
  | .wr p l =>
    .primitive
      (BitVec.ofNat 32 (k.wr.toNat * 2 ^ 29 + p.toNat * 2 ^ 24 + (levelCode k l).toNat))
  | .dly d => .primitive (BitVec.ofNat 32 (k.dly.toNat * 2 ^ 29 + d.toNat))
  | .now => .primitive (BitVec.ofNat 32 (k.now.toNat * 2 ^ 29))
  | .chkPin => .phase 2
  | .chkRep => .phase 3
  | .chkCnt => .phase 4
  | .chkPar => .phase 5
  | .chkLen => .phase 6
  | .chkSum => .phase 7
  | .engCfg => .phase 8
  | .engStamp0 => .phase 9
  | .engHold => .phase 10
  | .engBudget => .phase 11
  | .engDeassert => .phase 12
  | .engStamp1 => .phase 13

/-- The place and code of a word of spec/opcode_table.json: 8 bits (or the table's 4) are a
phase code, 40 (or 33) a pulse pattern, 32 a `CTRL` value where R48 gives it one and a pin-port
word otherwise (the values 1 and 2 are no pin-port word, so the two formats never collide). -/
def codeOfTableWord (nbits w : Nat) : Option Code :=
  if nbits ≤ 8 then
    if w < 16 then some (.phase (BitVec.ofNat 4 w)) else none
  else if nbits ≤ 32 then
    if w = 1 ∨ w = 2 then some (.command (BitVec.ofNat Config.argw w))
    else if w < 2 ^ 32 then some (.primitive (BitVec.ofNat 32 w)) else none
  else if nbits ≤ 40 then
    if w < 2 ^ 33 then some (.pulse (BitVec.ofNat 33 w)) else none
  else none

/-- The instruction the decoder reads from a word numbered as spec/opcode_table.json numbers
its bits, at the codes taken. -/
def decodeTableWord (nbits w : Nat) : Option Instr :=
  match codeOfTableWord nbits w with
  | some c =>
    match decode Config.portCodes c with
    | .ok i => some i
    | .error _ => none
  | none => none

end Sys2Proof
end

