-- ==== Sys2Proof/Machine/State.lean ====
section
/-! DEFINITION. All the state the spec gives the PTD and its environment (10_state.md R10 to
R24), as plain data; the state after reset (R23, R155); why a step can stop. INVENTORY.md lists
each field with its rule and its reset value. -/

namespace Sys2Proof.Machine

/-- `INITST` (10_state.md R20). -/
inductive InitState where
  | uninit | ready | fatal
deriving DecidableEq, Repr

/-- `MODE[p]` (R22). -/
inductive PinMode where
  | other | output
deriving DecidableEq, Repr

/-- `MODE[p]` and `LEVEL[p]` of one pin (R22). -/
structure PinState where
  mode : PinMode
  level : Level
deriving DecidableEq, Repr

/-- The answer of `setup()` (43_interfaces.md R118). -/
inductive SetupAnswer where
  | ok | error
deriving DecidableEq, Repr

/-- One primitive-operation event of `TRACE` (00_scope.md section 5.2). -/
inductive Event where
  /-- `CFG(p)`. -/
  | cfg (p : Nat)
  /-- `WR(p, l)`. -/
  | wr (p : Nat) (l : Level)
  /-- `DLY(d)`, microseconds. -/
  | dly (d : Nat)
  /-- `NOW(v)`, milliseconds. -/
  | now (v : Nat)
  /-- `SETUP(s)`. -/
  | setup (a : SetupAnswer)
deriving DecidableEq, Repr

/-- What the host does at one step of the machine (43_interfaces.md R121). An address is a byte
address, `BASE` and the offset (20_memory.md R33); `bytes` is the width of the access. -/
inductive HostMove where
  /-- No access: the PTD takes its step, or, while it is `IDLE`, `us` microseconds go by. -/
  | pass (us : Nat)
  /-- `HostRead(addr)`. -/
  | read (addr bytes : Nat)
  /-- `HostWrite(addr, v)`. -/
  | write (addr bytes : Nat) (v : Word)
  /-- The pseudo-instruction `tx` with the repeat count left out (30_encoding.md R55). -/
  | txDefault
  /-- The reset line (70_reset_and_hazards.md R155, R156). -/
  | reset
deriving DecidableEq, Repr

/-- `PMEM`'s contents: (word index, word) for each word the host has written since reset, by
strictly rising index. The unit is one word and has no bytes (20_memory.md R30; log entry 3). -/
abbrev Memory := List (Nat × Word)

/-- The state of the PTD, of its environment, and the model's own bookkeeping. -/
structure State where
  /-- `PIN` (R10). -/
  pin : Word
  /-- `REPEATS` (R10). -/
  repeats : Word
  /-- `COUNT` (R10). -/
  count : Word
  /-- `PMEM` (R11). -/
  pmem : Memory
  /-- `PHASE` (R12). -/
  phase : Phase
  /-- `R`, completed passes (R12). -/
  r : Nat
  /-- `I`, the pulse index (R12). -/
  i : Nat
  /-- `BUSY` (R13). -/
  busy : Bool
  /-- `DONE` (R13). -/
  done : Bool
  /-- `ERR` (R13). -/
  err : Bool
  /-- `CFAULT` (R13). -/
  cfault : Bool
  /-- `RESULT` (R16). -/
  result : Word
  /-- `RCOUNT` (R17). -/
  rcount : Word
  /-- `SUM` (R19), an integer in microseconds. -/
  sum : Int
  /-- `T_START` (R19), milliseconds. -/
  tStart : Nat
  /-- `T_END` (R19), milliseconds. -/
  tEnd : Nat
  /-- `INITST` (R20). -/
  initst : InitState
  /-- `MODE[p]` and `LEVEL[p]` of pins 2 to 27 (R22), pin `p` at index `p - 2`. -/
  pins : Vector PinState 26
  /-- `TUS`, true time in microseconds (R22, R99). -/
  tus : Nat
  /-- The clock's previous answer, which bounds the next (42_timing.md R98). -/
  lastNow : Nat
  /-- `TRACE`, oldest event first (R22). -/
  trace : List Event
  /-- The parameters of R5; no step writes them. -/
  params : Params
  /-- The word standing on the pin port, if any (20_memory.md R34: the PTD's own operations
  leave none there; log entry 11). -/
  port : Option PortWord
  /-- The host's coming moves, next first; when the list is empty the host makes no access. -/
  host : List HostMove
  /-- What the host's last read returned. -/
  rdata : Word
  /-- The environment's coming draws, next first (log entry 4). -/
  oracle : List Nat
  /-- How many draws the environment has made. -/
  drawn : Nat
  /-- How many resets there have been. -/
  epoch : Nat
deriving DecidableEq, Repr

/-- The machine right after reset (10_state.md R23, 70_reset_and_hazards.md R155). Where R23
says 'unspecified' the value is the model's: log entries 1, 2, 7, 8, 9; so are the parameters
R5 leaves open: log entries 7, 19. -/
def State.reset : State where
  pin := 0
  repeats := 0
  count := 0
  pmem := []
  phase := .idle
  r := 0
  i := 0
  busy := false
  done := false
  err := false
  cfault := false
  result := 0
  rcount := 0
  sum := 0
  tStart := 0
  tEnd := 0
  initst := .uninit
  pins := Vector.replicate 26 { mode := .other, level := .low }
  tus := Config.tus0
  lastNow := 0
  trace := []
  params :=
    { level := .a, ovhStep := Config.ovhStep, ovhDly := 0, base := 0,
      errCodes := Config.errCodes, portCodes := Config.portCodes }
  port := none
  host := []
  rdata := 0
  oracle := []
  drawn := 0
  epoch := 0

/-- Why the machine stops with a fault: an access to something the spec says does not exist.
None can happen to a PTD that its own checker guards (41_engine.md R75). -/
inductive Fault where
  /-- `Cfg` or `Wr` of a pin outside 2 to 27, which the pin space does not hold (10_state.md
  R21, R22). Raised by CFG, WR and the scheduler operations that issue them; safe. -/
  | noSuchPin
  /-- A `PMEM` word at index 1000 or above, which does not exist (R11). Raised by CHK.LEN,
  CHK.SUM and ENG.HOLD; safe. -/
  | noSuchPulseWord
  /-- The word ENG.HOLD fetches is no format P instruction (30_encoding.md R46): a bit of
  `w[31:17]` is set. Raised by ENG.HOLD; safe. -/
  | notAPulseWord
deriving DecidableEq, Repr

/-- Why the machine gives a step no meaning. -/
inductive Refusal where
  /-- An instruction that has no meaning yet, by its mnemonic. Raised by no arm; safe. -/
  | notModelled (mnemonic : String)
  /-- A `TX` start while `BUSY` = 0 and `INITST` is not `READY` (43_interfaces.md R112, U1).
  Raised by TX and TX.default; safe. -/
  | txNotReady
  /-- A code that is no operation: a reserved `CTRL` value (30_encoding.md R52, U5) or a
  reserved pin-port word (R49). Raised by the fetch; safe. -/
  | undecodable (e : DecodeError)
  /-- A host access that is misaligned, not one word wide, at a reserved offset, or
  below `BASE` (20_memory.md R31, U8). Raised by host reads and writes; safe. -/
  | badHostAccess
  /-- Reset while `BUSY` = 1 (70_reset_and_hazards.md R156, U4). Raised by the reset line; safe. -/
  | resetWhileBusy
  /-- An elapsed value that `ARGW` signed bits do not hold (30_encoding.md R47, U9). Raised by
  ENG.STAMP1; safe. -/
  | elapsedTooWide
deriving DecidableEq, Repr

/-- What a step or a meaning answers. -/
abbrev Answer := Host.Outcome State Fault Refusal

end Sys2Proof.Machine
end

