-- ==== Sys2Proof/Machine/Memory.lean ====
section
/-! DEFINITION. `PMEM` as a list in one canonical form: word indices strictly rising, all below
1000, a word listed exactly when the host has written it since reset (10_state.md R11, R26;
log entries 3 and 5). -/

namespace Sys2Proof.Machine

/-- The word listed at index `i`, if the host has written it since reset. -/
def Memory.lookup : Memory → Nat → Option Word
  | [], _ => none
  | (j, w) :: rest, i => if i = j then some w else Memory.lookup rest i

/-- The list with word `i` holding `v`. -/
def Memory.store : Memory → Nat → Word → Memory
  | [], i, v => [(i, v)]
  | (j, w) :: rest, i, v =>
    if i < j then (i, v) :: (j, w) :: rest
    else if i = j then (i, v) :: rest
    else (j, w) :: Memory.store rest i v

/-- Every index is at least `lo` and below the capacity, and the indices rise strictly. -/
def Memory.risingFrom : Nat → Memory → Bool
  | _, [] => true
  | lo, (j, _) :: rest =>
    decide (lo ≤ j) && decide (j < Config.maxPulseCount) && Memory.risingFrom (j + 1) rest

/-- The canonical form. -/
def Memory.wf (m : Memory) : Bool := Memory.risingFrom 0 m

end Sys2Proof.Machine
end

