-- ==== Sys2Proof/Machine/Operands.lean ====
section
/-! DEFINITION. How each operation obtains its operands (30_encoding.md R51) and the range
tests the checker makes on them (40_validator.md R61 to R66, 42_timing.md R103). -/

namespace Sys2Proof.Machine

/-- The range test `lo ≤ x ≤ hi` on the integer a word holds (R103). -/
def inRange (lo hi : Nat) (w : Word) : Bool :=
  decide ((lo : Int) ≤ w.toInt) && decide (w.toInt ≤ (hi : Int))

/-- The test of CHK.PIN (R61). -/
def pinLegal (w : Word) : Bool := inRange Config.pinMin Config.pinMax w

/-- The test of CHK.REP (R62). -/
def repeatsLegal (w : Word) : Bool := inRange 1 Config.maxTxRepeats w

/-- The test of CHK.CNT (R63). -/
def countLegal (w : Word) : Bool := inRange 1 Config.maxPulseCount w

/-- The test of CHK.PAR, `COUNT mod 2 = 0`, for every sign (R64, R103). -/
def countEven (w : Word) : Bool := decide (w.toInt % 2 = 0)

/-- The test of CHK.LEN, `0 < d ≤ 100000` (R65). -/
def lengthLegal (w : Word) : Bool := inRange 1 Config.maxPulseLength w

/-- `PMEM[i]` for `i < 1000`: what the host wrote, else a value the spec leaves open, the same
at every read until reset (10_state.md R26, U6). -/
def pulseWord (s : State) (i : Nat) : Word :=
  match Memory.lookup s.pmem i with
  | some w => w
  | none => Config.pmemUnspecified s.epoch i

/-- `PMEM` has the word at this index (R11). -/
def pulseWordExists (i : Nat) : Bool := decide (i < Config.maxPulseCount)

/-- The level of pulse `i`: HIGH at an even index, LOW at an odd one (R51). -/
def pulseLevel (i : Nat) : Level := if i % 2 = 0 then .high else .low

/-- The 33-bit pattern `i[0] ++ w[31:0]` of the pulse instruction at index `i` (R46). -/
def pulsePattern (i : Nat) (w : Word) : BitVec 33 := BitVec.ofNat 33 (i % 2 * 2 ^ 32 + w.toNat)

/-- The budget limit `T_START + MAX_TX_TIME`, in milliseconds (R51, R96). -/
def budgetLimit (s : State) : Nat := s.tStart + Config.maxTxTime

/-- The index of pin `p` among the pins 2 to 27; no other pin exists (R22, R39). -/
def pinSlot (p : Int) : Option (Fin 26) :=
  if h : (2 : Int) ≤ p ∧ p ≤ 27 then some ⟨(p - 2).toNat, by omega⟩ else none

/-- The Broadcom number of the pin at an index (R39: no translation of numbers). -/
def pinNumber (j : Fin 26) : Nat := j.val + 2

/-- An integer that `ARGW` signed bits hold (R47, 00_scope.md section 5.1). -/
def fitsWord (x : Int) : Bool :=
  decide (-2 ^ (Config.argw - 1) ≤ x) && decide (x ≤ 2 ^ (Config.argw - 1) - 1)

/-- The level an environment draw stands for: every level is some draw's (R114, R118). -/
def levelOfDraw (x : Nat) : Level := if x % 2 = 0 then .low else .high

/-- The mode an environment draw stands for. -/
def modeOfDraw (x : Nat) : PinMode := if x % 2 = 0 then .other else .output

/-- The answer of `setup()` a draw stands for (`SETUP_RESULT`, D27). -/
def answerOfDraw (x : Nat) : SetupAnswer := if x % 2 = 0 then .ok else .error

/-- The modes and levels of all pins a draw stands for: two of its bits for each pin, so every
choice of modes and levels is some draw's (R118, U3). Irreducible, so that comparing two states
never computes it; its law is `pinsOfDraw_get`. -/
@[irreducible] def pinsOfDraw (x : Nat) : Vector PinState 26 :=
  Vector.ofFn fun j =>
    { mode := modeOfDraw (x >>> (2 * j.val)), level := levelOfDraw (x >>> (2 * j.val + 1)) }

/-- An overhead `e` with `0 ≤ e ≤ bound` that a draw stands for; every such `e` is some draw's
(R100, R101). -/
def overhead (bound x : Nat) : Nat := if bound = 0 then 0 else x % (bound + 1)

/-- `ERRCODE` of a kind, from the codes the machine is configured with (60_exceptions.md R130,
D3). What a claim may assume of the codes is `ErrCodesLegal`. -/
def errCode (c : ErrCodes) : ErrorKind → Word
  | .invalidGpio => c.invalidGpio
  | .invalidRepeats => c.invalidRepeats
  | .invalidPulseCount => c.invalidPulseCount
  | .pulseTrainOdd => c.pulseTrainOdd
  | .invalidPulseLength => c.invalidPulseLength
  | .invalidTxTime => c.invalidTxTime
  | .unknown => c.unknown

end Sys2Proof.Machine
end

