-- ==== Sys2Proof/Machine/Flags.lean ====
section
/-! DEFINITION. The four flags and `STATUS` (10_state.md R13, R15): how a command's start and
its two kinds of end write the flags, and the word the host reads. -/

namespace Sys2Proof.Machine

/-- The caller-fault class (60_exceptions.md R142). -/
def callerFault : ErrorKind → Bool
  | .invalidGpio | .invalidRepeats => true
  | .invalidPulseCount | .pulseTrainOdd | .invalidPulseLength | .invalidTxTime | .unknown => false

/-- The start of a command: `BUSY` is set, `DONE`, `ERR`, `CFAULT` are cleared, and `PHASE` is
the command's first (43_interfaces.md R110, R113). -/
def State.start (s : State) (p : Phase) : State :=
  { s with busy := true, done := false, err := false, cfault := false, phase := p }

/-- The end of a command with the flags `ERR` and `CFAULT` as given: `DONE` is set, `BUSY` is
cleared, `PHASE` is `IDLE` (41_engine.md R83, 60_exceptions.md R140, 43_interfaces.md R113). -/
def State.finish (s : State) (err cfault : Bool) : State :=
  { s with err := err, cfault := cfault, done := true, busy := false, phase := .idle }

/-- The code of `INITST` in `STATUS[5:4]` (R15). -/
def initCode : InitState → Nat
  | .uninit => 0
  | .ready => 1
  | .fatal => 2

/-- `STATUS`: bit 0 `BUSY`, 1 `DONE`, 2 `ERR`, 3 `CFAULT`, 5:4 `INITST`, the rest 0 (R15). -/
def statusWord (s : State) : Word :=
  BitVec.ofNat Config.argw
    (s.busy.toNat + 2 * s.done.toNat + 4 * s.err.toNat + 8 * s.cfault.toNat
      + 16 * initCode s.initst)

end Sys2Proof.Machine
end

