-- ==== Sys2Proof/Machine/Ops.lean ====
section
/-! DEFINITION. The operations the meanings share: the environment's draws and time, the five
primitives of the GPIO collaborator (43_interfaces.md R114 to R118), raising an error (the
PTD's one kind of exception, 60_exceptions.md R140), starting and ending a command, playing a
pulse. Each adds its own overhead of time after its effect (42_timing.md R100, R101). -/

namespace Sys2Proof.Machine

/-! ### Draws, time and the trace -/

/-- The environment's `k`-th coming draw: what the oracle list names, else a free value. -/
def State.drawAt (s : State) (k : Nat) : Nat :=
  match s.oracle[k]? with
  | some x => x
  | none => Config.free (s.drawn + k)

/-- The next draw. -/
def State.peek (s : State) : Nat := s.drawAt 0

/-- `n` draws have been made. -/
def State.consume (s : State) (n : Nat) : State :=
  { s with oracle := s.oracle.drop n, drawn := s.drawn + n }

/-- True time advances by `us` microseconds (R99). -/
def State.addTime (s : State) (us : Nat) : State := { s with tus := s.tus + us }

/-- An event is appended to `TRACE` (R22). -/
def State.log (s : State) (e : Event) : State := { s with trace := s.trace ++ [e] }

/-- One pin's mode and level become `p`. -/
def State.setPin (s : State) (j : Fin 26) (p : PinState) : State :=
  { s with pins := s.pins.set j p }

/-- A step or primitive other than a delay takes between 0 and `OVH_STEP` microseconds (R101). -/
def State.spend (s : State) : State :=
  (s.addTime (overhead s.params.ovhStep s.peek)).consume 1

/-! ### The primitives -/

/-- `Cfg(p)` (R114): the pin becomes an output; if it was none, its level becomes a value the
spec leaves open (U2), else nothing of it changes. -/
def cfgPin (j : Fin 26) (s : State) : State :=
  let configured :=
    if s.pins[j].mode = .output then s
    else (s.setPin j { mode := .output, level := levelOfDraw s.peek }).consume 1
  (configured.log (.cfg (pinNumber j))).spend

/-- `Wr(p, l)` (R115): an output pin's level becomes `l`. For a pin that is not an output R115
does not specify the level, so it becomes a free value (log entry 12). -/
def wrPin (j : Fin 26) (l : Level) (s : State) : State :=
  let written :=
    if s.pins[j].mode = .output then s.setPin j { s.pins[j] with level := l }
    else (s.setPin j { s.pins[j] with level := levelOfDraw s.peek }).consume 1
  (written.log (.wr (pinNumber j) l)).spend

/-- `Dly(d)` (R116, R100): true time advances by `d` and at most `OVH_DLY` more. -/
def delayFor (d : Nat) (s : State) : State :=
  ((s.log (.dly d)).addTime (d + overhead s.params.ovhDly s.peek)).consume 1

/-- What `Now()` answers (R117): at level A any value not below the previous answer (R98), at
level B `floor(TUS / 1000)` (R102). -/
def clockAnswer (s : State) : Nat :=
  match s.params.level with
  | .a => s.lastNow + s.peek
  | .b => s.tus / 1000

/-- How many draws the clock's answer takes: one at level A, none at level B. -/
def clockDraws (s : State) : Nat :=
  match s.params.level with
  | .a => 1
  | .b => 0

/-- `Now()` (R117): the answer is recorded in the trace and remembered (R98). -/
def readClock (s : State) : State :=
  (State.log { s.consume (clockDraws s) with lastNow := clockAnswer s }
    (.now (clockAnswer s))).spend

/-- What `Setup()` answers: a draw (R118, D27). -/
def setupAnswer (s : State) : SetupAnswer := answerOfDraw (s.drawAt 0)

/-- `Setup()` (R118): every pin's mode and level become any values, and it takes any time. -/
def runSetup (s : State) : State :=
  (State.log { s with pins := pinsOfDraw (s.drawAt 1), tus := s.tus + s.drawAt 2 }
    (.setup (setupAnswer s))).consume 3

/-- A primitive on pin number `p`, which must be one of 2 to 27: no other pin exists (R22). -/
def onPin (p : Int) (f : Fin 26 → State) : Answer :=
  match pinSlot p with
  | some j => .next (f j)
  | none => .fault .noSuchPin

/-! ### Errors and the ends of commands -/

/-- `raise K` (60_exceptions.md R140): exactly these registers and flags, and the command has
ended. There is no return from it (R141): the error is the command's return. -/
def raise (k : ErrorKind) (s : State) : State :=
  State.finish { s with result := errCode s.params.errCodes k, rcount := 0 } true (callerFault k)

/-- The end of a transmission at clock answer `t` (41_engine.md R83); an elapsed value too wide
for `RESULT` is refused (R47). -/
def endTransmission (t : Nat) (s : State) : Answer :=
  if fitsWord ((t : Int) - (s.tStart : Int)) then
    .next (State.finish
      { s with tEnd := t, result := BitVec.ofInt Config.argw ((t : Int) - (s.tStart : Int)),
               rcount := BitVec.ofNat Config.argw s.r }
      false false)
  else .refused .elapsedTooWide

/-- The end of an `INIT` that leaves `INITST` = `st` (43_interfaces.md R113). -/
def endInit (st : InitState) (s : State) : State :=
  State.finish { s with initst := st, result := 0, rcount := 0 } (decide (st = .fatal)) false

/-- `INITST` after a call of `Setup()` (R113). -/
def initStateOf : SetupAnswer → InitState
  | .ok => .ready
  | .error => .fatal

/-- The internal step `I_SETUP` of `INIT` (R113): `Setup()` is called from `UNINIT` only. -/
def initStep (s : State) : State :=
  match s.initst with
  | .uninit => endInit (initStateOf (setupAnswer s)) (runSetup s)
  | .ready => endInit .ready s
  | .fatal => endInit .fatal s

/-- The start of a `TX` (43_interfaces.md R110, R112): ignored while `BUSY` = 1, refused while
`INITST` is not `READY`. `s'` is the state it starts from. -/
def launchTx (s s' : State) : Answer :=
  if s.busy then .next s
  else if s.initst = .ready then .next (s'.start .vPin)
  else .refused .txNotReady

/-! ### The pulse program -/

/-- The successor of a pulse instruction (41_engine.md R84). -/
def pulseSuccessor (s : State) : State :=
  if (s.i : Int) + 1 < s.count.toInt then { s with i := s.i + 1 } else { s with phase := .eBudget }

/-- Drive `PIN` to a level, hold it for `d` microseconds, and go on (R79, R80, R84). -/
def playPulse (l : Level) (d : Nat) (s : State) : Answer :=
  onPin s.pin.toInt fun j => pulseSuccessor (delayFor d (wrPin j l s))

/-! ### Reset -/

/-- Reset (70_reset_and_hazards.md R155, 10_state.md R23): the PTD's state takes its reset
values; what R23 leaves unspecified becomes a free value; the clock is untouched. -/
def resetPtd (s : State) : State :=
  State.consume
    { s with
      pin := BitVec.ofNat Config.argw (s.drawAt 0),
      repeats := BitVec.ofNat Config.argw (s.drawAt 1),
      count := BitVec.ofNat Config.argw (s.drawAt 2), pmem := [], phase := .idle, r := 0, i := 0,
      busy := false, done := false, err := false, cfault := false, result := 0, rcount := 0,
      sum := 0, tStart := s.drawAt 3, tEnd := s.drawAt 4, initst := .uninit,
      pins := pinsOfDraw (s.drawAt 5), trace := [], port := none, epoch := s.epoch + 1 }
    6

end Sys2Proof.Machine
end

