-- ==== Sys2Proof/Machine/Checker.lean ====
section
/-! DEFINITION. The timing-constraint checker (40_validator.md R61 to R66): six checks, each
going on to its successor or raising its error. No check issues a primitive (R70). -/

namespace Sys2Proof.Machine

/-- `CHK.PIN` (R61). -/
def execChkPin (s : State) : Answer :=
  if pinLegal s.pin then .next { s with phase := .vRep } else .next (raise .invalidGpio s)

/-- `CHK.REP` (R62). -/
def execChkRep (s : State) : Answer :=
  if repeatsLegal s.repeats then .next { s with phase := .vCnt }
  else .next (raise .invalidRepeats s)

/-- `CHK.CNT` (R63). -/
def execChkCnt (s : State) : Answer :=
  if countLegal s.count then .next { s with phase := .vPar }
  else .next (raise .invalidPulseCount s)

/-- `CHK.PAR` (R64), and entry to the scan. -/
def execChkPar (s : State) : Answer :=
  if countEven s.count then .next { s with sum := 0, i := 0, phase := .vLen }
  else .next (raise .pulseTrainOdd s)

/-- `CHK.LEN` of element `I` (R65). -/
def execChkLen (s : State) : Answer :=
  if pulseWordExists s.i then
    if lengthLegal (pulseWord s s.i) then .next { s with phase := .vSum }
    else .next (raise .invalidPulseLength s)
  else .fault .noSuchPulseWord

/-- What CHK.SUM does with the new prefix sum `x` (R66, R68). -/
def scanOn (x : Int) (s : State) : State :=
  if x > (Config.sumLimit : Int) then raise .invalidTxTime { s with sum := x }
  else if (s.i : Int) + 1 < s.count.toInt then { s with sum := x, i := s.i + 1, phase := .vLen }
  else { s with sum := x, i := 0, r := 0, phase := .eCfg }

/-- `CHK.SUM` at element `I` (R66). -/
def execChkSum (s : State) : Answer :=
  if pulseWordExists s.i then .next (scanOn (s.sum + (pulseWord s s.i).toInt) s)
  else .fault .noSuchPulseWord

end Sys2Proof.Machine
end

