-- ==== Sys2Proof/Machine/Command.lean ====
section
/-! DEFINITION. The host commands (43_interfaces.md R110 to R113, 30_encoding.md R55). -/

namespace Sys2Proof.Machine

/-- `TX` (R110, R112): the start of the command; its checks and its transmission are the steps
of the phases that follow. -/
def execTx (s : State) : Answer := launchTx s s

/-- `TX.default` (R55): the host writes 4 to `REPEATS`, then `TX`. -/
def execTxDefault (s : State) : Answer :=
  launchTx s { s with repeats := BitVec.ofNat Config.argw Config.defaultRepeats }

/-- `INIT` (R113): with `BUSY` = 0 the start of the command; in its internal phase `I_SETUP`
the rest of it; while another command is in flight it is ignored (20_memory.md R37). -/
def execInit (s : State) : Answer :=
  if s.busy then
    if s.phase = .iSetup then .next (initStep s) else .next s
  else .next (s.start .iSetup)

end Sys2Proof.Machine
end

