-- ==== Sys2Proof/Machine/Primitive.lean ====
section
/-! DEFINITION. The five primitive operations of the pin port (43_interfaces.md R114 to R118),
as operations of their own. -/

namespace Sys2Proof.Machine

/-- `SETUP` (R118). `INITST` is not written here: `INIT` records the answer (R113). -/
def execSetup (s : State) : Answer := .next (runSetup s)

/-- `CFG p` (R114). -/
def execCfg (p : BitVec 5) (s : State) : Answer := onPin p.toNat fun j => cfgPin j s

/-- `WR p, l` (R115). -/
def execWr (p : BitVec 5) (l : Level) (s : State) : Answer := onPin p.toNat fun j => wrPin j l s

/-- `DLY d` (R116). -/
def execDly (d : BitVec 17) (s : State) : Answer := .next (delayFor d.toNat s)

/-- `NOW` (R117). -/
def execNow (s : State) : Answer := .next (readClock s)

end Sys2Proof.Machine
end

