-- ==== Sys2Proof/Machine/Pulse.lean ====
section
/-! DEFINITION. The two pulse instructions (41_engine.md R79, R80), each with the successor of
R84. -/

namespace Sys2Proof.Machine

/-- `HOLDH d` (R79): the pin is driven HIGH and held for `d` microseconds. -/
def execHoldH (d : BitVec 17) (s : State) : Answer := playPulse .high d.toNat s

/-- `HOLDL d` (R80): the pin is driven LOW and held for `d` microseconds. -/
def execHoldL (d : BitVec 17) (s : State) : Answer := playPulse .low d.toNat s

end Sys2Proof.Machine
end

