-- ==== Sys2Proof/Machine/Scheduler.lean ====
section
/-! DEFINITION. The transition scheduler (41_engine.md R77, R78, R81 to R84). No operation here
raises an error (60_exceptions.md R152). -/

namespace Sys2Proof.Machine

/-- `ENG.CFG` (R77). -/
def execEngCfg (s : State) : Answer :=
  onPin s.pin.toInt fun j => { cfgPin j s with phase := .eStamp0 }

/-- `ENG.STAMP0` (R78). -/
def execEngStamp0 (s : State) : Answer :=
  .next { readClock s with tStart := clockAnswer s, r := 0, i := 0, phase := .eHold }

/-- The pulse instruction at `I` (R46, R84): the index's low bit over the word. -/
def fetchPulse (s : State) : Except DecodeError Instr :=
  decodePulse (pulsePattern s.i (pulseWord s s.i))

/-- `ENG.HOLD` (R84): fetch the pulse instruction at `I` and execute it. The scheduler does not
check the word again (R75); one that is no pulse instruction cannot be executed. -/
def execEngHold (s : State) : Answer :=
  if pulseWordExists s.i then
    match fetchPulse s with
    | .ok (.holdH d) => execHoldH d s
    | .ok (.holdL d) => execHoldL d s
    | _ => .fault .notAPulseWord
  else .fault .noSuchPulseWord

/-- Where ENG.BUDGET goes after pass `s.r`, the clock having answered `t` (R81, R96). -/
def afterPass (t : Nat) (s : State) : State :=
  if t > budgetLimit s then { s with phase := .eDeassert }
  else if (s.r : Int) = s.repeats.toInt then { s with phase := .eDeassert }
  else { s with i := 0, phase := .eHold }

/-- `ENG.BUDGET` (R81). -/
def execEngBudget (s : State) : Answer :=
  .next (afterPass (clockAnswer s) (readClock { s with r := s.r + 1 }))

/-- `ENG.DEASSERT` (R82). -/
def execEngDeassert (s : State) : Answer :=
  onPin s.pin.toInt fun j => { wrPin j .low s with phase := .eStamp1 }

/-- `ENG.STAMP1` (R83). -/
def execEngStamp1 (s : State) : Answer := endTransmission (clockAnswer s) (readClock s)

end Sys2Proof.Machine
end

