-- ==== Sys2Proof/Machine/Dispatch.lean ====
section
/-! DEFINITION. The meaning of each instruction: one arm per constructor, one direct call. -/

namespace Sys2Proof.Machine

def exec (i : Instr) (s : State) : Host.Outcome State Fault Refusal :=
  match i with
  | .tx => Sys2Proof.Machine.execTx s
  | .init => Sys2Proof.Machine.execInit s
  | .txDefault => Sys2Proof.Machine.execTxDefault s
  | .holdH d => Sys2Proof.Machine.execHoldH d s
  | .holdL d => Sys2Proof.Machine.execHoldL d s
  | .setup => Sys2Proof.Machine.execSetup s
  | .cfg p => Sys2Proof.Machine.execCfg p s
  | .wr p l => Sys2Proof.Machine.execWr p l s
  | .dly d => Sys2Proof.Machine.execDly d s
  | .now => Sys2Proof.Machine.execNow s
  | .chkPin => Sys2Proof.Machine.execChkPin s
  | .chkRep => Sys2Proof.Machine.execChkRep s
  | .chkCnt => Sys2Proof.Machine.execChkCnt s
  | .chkPar => Sys2Proof.Machine.execChkPar s
  | .chkLen => Sys2Proof.Machine.execChkLen s
  | .chkSum => Sys2Proof.Machine.execChkSum s
  | .engCfg => Sys2Proof.Machine.execEngCfg s
  | .engStamp0 => Sys2Proof.Machine.execEngStamp0 s
  | .engHold => Sys2Proof.Machine.execEngHold s
  | .engBudget => Sys2Proof.Machine.execEngBudget s
  | .engDeassert => Sys2Proof.Machine.execEngDeassert s
  | .engStamp1 => Sys2Proof.Machine.execEngStamp1 s

end Sys2Proof.Machine
end

