-- ==== Sys2Proof/Machine/HostPort.lean ====
section
/-! DEFINITION. The host port (20_memory.md R31 to R33, R37): what a read of each offset
returns and what a write of each does, the reset line, and time going by while the PTD is
`IDLE`. A `CTRL` write that starts a command is a fetch (Fetch.lean). -/

namespace Sys2Proof.Machine

/-- The offset from `BASE` of a host address; none below `BASE` (R33). -/
def hostOffset (addr : Nat) (s : State) : Option Nat :=
  if s.params.base ≤ addr then some (addr - s.params.base) else none

/-- What a read of an offset returns; nothing where R31 and R33 give the offset no meaning. -/
def hostValue (off : Nat) (s : State) : Option Word :=
  if off = Config.offCtrl then some 0
  else if off = Config.offStatus then some (statusWord s)
  else if off = Config.offPin then some s.pin
  else if off = Config.offRepeats then some s.repeats
  else if off = Config.offCount then some s.count
  else if off = Config.offResult then
    some (if s.done then s.result else Config.earlyRead off s.drawn)
  else if off = Config.offRcount then
    some (if s.done then s.rcount else Config.earlyRead off s.drawn)
  else if off = Config.offReserved then some 0
  else if off = Config.offMaxPulseLength then
    some (BitVec.ofNat Config.argw Config.maxPulseLength)
  else if off = Config.offMaxPulseCount then some (BitVec.ofNat Config.argw Config.maxPulseCount)
  else if off = Config.offMaxTxTime then some (BitVec.ofNat Config.argw Config.maxTxTime)
  else if off = Config.offMaxTxRepeats then some (BitVec.ofNat Config.argw Config.maxTxRepeats)
  else if off = Config.offDefaultRepeats then
    some (BitVec.ofNat Config.argw Config.defaultRepeats)
  else if off = Config.offPinMin then some (BitVec.ofNat Config.argw Config.pinMin)
  else if off = Config.offPinMax then some (BitVec.ofNat Config.argw Config.pinMax)
  else if Config.offPmem ≤ off ∧ off < Config.offPmemEnd ∧ off % 4 = 0 then
    some (pulseWord s ((off - Config.offPmem) / 4))
  else none

/-- `HostRead(addr)` of an access `bytes` wide (R31, R32): no side effect on the PTD. -/
def hostRead (addr bytes : Nat) (s : State) : Answer :=
  if bytes = 4 then
    match (hostOffset addr s).bind fun off => hostValue off s with
    | some w => .next { s with rdata := w }
    | none => .refused .badHostAccess
  else .refused .badHostAccess

/-- The state after a write of `v` at an offset while `BUSY` = 0, for the offsets where a write
has a meaning: the request registers and `PMEM` take the value; read-only registers, offset
0x01C and the offsets above `PMEM` ignore it (R31, R33, D24). -/
def hostStore (off : Nat) (v : Word) (s : State) : Option State :=
  if off = Config.offPin then some { s with pin := v }
  else if off = Config.offRepeats then some { s with repeats := v }
  else if off = Config.offCount then some { s with count := v }
  else if off % 4 ≠ 0 then none
  else if off < Config.offRegistersEnd then some s
  else if off < Config.offPmem then none
  else if off < Config.offPmemEnd then
    some { s with pmem := Memory.store s.pmem ((off - Config.offPmem) / 4) v }
  else some s

/-- `HostWrite(addr, v)` of an access `bytes` wide, other than a `CTRL` write that starts a
command: while `BUSY` = 1 it changes nothing (R37). -/
def hostWrite (addr bytes : Nat) (v : Word) (s : State) : Answer :=
  if bytes = 4 then
    match (hostOffset addr s).bind fun off => hostStore off v s with
    | some t => .next (if s.busy then s else t)
    | none => .refused .badHostAccess
  else .refused .badHostAccess

/-- The reset line (70_reset_and_hazards.md R155, R156). -/
def hostReset (s : State) : Answer :=
  if s.busy then .refused .resetWhileBusy else .next (resetPtd s)

/-- What happens at a step in which no operation is fetched: the host's move, or, where the
PTD is `IDLE` and the host makes no access, the passing of time (42_timing.md R99). -/
def hostTurn (s : State) : Answer :=
  match s.host with
  | [] => .next ((s.addTime s.peek).consume 1)
  | .pass us :: rest => .next (State.addTime { s with host := rest } us)
  | .read addr bytes :: rest => hostRead addr bytes { s with host := rest }
  | .write addr bytes v :: rest => hostWrite addr bytes v { s with host := rest }
  | .txDefault :: rest => exec .txDefault { s with host := rest }
  | .reset :: rest => hostReset { s with host := rest }

end Sys2Proof.Machine
end

