-- ==== Sys2Proof/Machine/Fetch.lean ====
section
/-! DEFINITION. What the next step fetches: a word standing on the pin port, a command the host
writes to `CTRL`, or the operation of the phase (10_state.md R12, R14; 30_encoding.md R48, R49,
R53). And how an operation's code is put where the next step fetches it. -/

namespace Sys2Proof.Machine

/-- The code of the phase's operation; the `IDLE` PTD runs none (R12, R151). -/
def phaseFetch (s : State) : Option Code :=
  if s.phase = .idle then none else some (.phase (phaseCode s.phase))

/-- The code the next step fetches, if it fetches one. A word on the pin port is executed
before anything else is issued (20_memory.md R34). A write of `CTRL` is a command while
`BUSY` = 0 (10_state.md R14); while `BUSY` = 1 it is an ignored write (R37). -/
def fetchedCode (s : State) : Option Code :=
  match s.port with
  | some w => some (.primitive w)
  | none =>
    match s.host with
    | [] => phaseFetch s
    | .pass _ :: _ => phaseFetch s
    | .write addr bytes v :: _ =>
      if hostOffset addr s = some Config.offCtrl ∧ bytes = 4 ∧ s.busy = false then
        some (.command v)
      else none
    | .read _ _ :: _ => none
    | .txDefault :: _ => none
    | .reset :: _ => none

/-- The state in which the fetched operation runs: the fetched word is off the port, or the
host's move is made. -/
def afterFetch (s : State) : State :=
  match s.port with
  | some _ => { s with port := none }
  | none => { s with host := s.host.tail }

/-- What a step adds around an operation: one visit of a phase takes its own overhead of time,
beside that of the primitives it issues (42_timing.md R101, R167). -/
def aroundExec (c : Code) (a : Answer) : Answer :=
  match c, a with
  | .phase _, .next t => .next t.spend
  | _, a => a

/-- `s` with a pin named that exists: the request's own, else pin 2, the lowest (R3). -/
def withRequestPin (s : State) : State :=
  { s with pin := if pinLegal s.pin then s.pin else BitVec.ofNat Config.argw Config.pinMin }

/-- `s` with word `I` of `PMEM` written by the host: as it stands if it was, else 1, the
shortest pulse (R65). -/
def withListedWord (s : State) : State :=
  { s with pmem := Memory.store s.pmem s.i ((Memory.lookup s.pmem s.i).getD 1) }

/-- What a phase's operation reads of the request, put there where it is not: the scheduler is
never entered without a pin it may drive and a pulse it may hold (41_engine.md R75). -/
def withOperands (p : Phase) (s : State) : State :=
  match p with
  | .vLen | .vSum => withListedWord s
  | .eHold => withRequestPin (withListedWord s)
  | .eCfg | .eDeassert => withRequestPin s
  | .idle | .iSetup | .vPin | .vRep | .vCnt | .vPar | .eStamp0 | .eBudget | .eStamp1 => s

/-- The state with an operation's code put where the next step fetches it (log entry 13): a
command is the host's next write to `CTRL`, for a `TX` after the boot of R157 (`INITST` is
`READY`); a pin-port word stands on the port; a phase code is the phase, over a request its
operation can read; a pulse pattern is the word at index 0 or 1 of `PMEM`, about to be held on
a pin that exists. -/
def placeCode (c : Code) (s : State) : State :=
  match c with
  | .command w =>
    { s with port := none, host := .write (s.params.base + Config.offCtrl) 4 w :: s.host,
             busy := false, phase := .idle,
             initst := if w = 1 then .ready else s.initst }
  | .primitive w => { s with port := some w }
  | .phase c =>
    match phaseOfCode c with
    | some p => withOperands p { s with port := none, host := .pass 0 :: s.host, phase := p }
    | none => s
  | .pulse x =>
    withRequestPin
      { s with port := none, host := .pass 0 :: s.host, phase := .eHold,
               i := (x.extractLsb' 32 1).toNat,
               pmem := Memory.store s.pmem (x.extractLsb' 32 1).toNat
                 (BitVec.ofNat Config.argw (x.extractLsb' 0 32).toNat) }

end Sys2Proof.Machine
end

