-- ==== Sys2Proof/Machine/Step.lean ====
section
/-! DEFINITION. One step of the machine: fetch, decode, execute, or the host's move. -/

namespace Sys2Proof.Machine

/-- One step (60_exceptions.md R149: the host, the PTD and the environment are the agents; one
phase visit is one step, 10_state.md R12). -/
def step (s : State) : Host.Outcome State Fault Refusal :=
  match fetchedCode s with
  | some c =>
    match decode s.params.portCodes c with
    | .ok i => aroundExec c (exec i (afterFetch s))
    | .error e => .refused (.undecodable e)
  | none => hostTurn s

/-- `s` with the instruction of a word of spec/opcode_table.json where the next step fetches it. -/
def State.withFetchWord (s : State) (nbits w : Nat) : State :=
  match codeOfTableWord nbits w with
  | some c => placeCode c s
  | none => s

end Sys2Proof.Machine
end

