-- ==== Sys2Proof/Safety.lean ====
section
/-! DEFINITION. What the claims speak of: a legal request and the checker's verdict on it
(40_validator.md R71), the events of a pass (41_engine.md R89), what a claim may assume of the
parameters, and the invariants of a run. -/

namespace Sys2Proof.Machine

/-! ### The parameters -/

/-- All that R130 lets a claim assume of `ERRCODE`: every code is negative and the seven are
distinct. -/
def ErrCodesLegal (c : ErrCodes) : Prop :=
  (∀ e, (errCode c e).toInt < 0) ∧ ∀ e e', errCode c e = errCode c e' → e = e'

/-- `OPCODE` and `LEVELCODE` tell the five operations and the two levels apart (R49, R50). -/
def PortCodesLegal (k : PortCodes) : Prop :=
  [k.setup, k.cfg, k.wr, k.dly, k.now].Nodup ∧ k.high ≠ k.low

/-- The parameters are ones R5 admits; `BASE` is word-aligned (D1). -/
def ParamsLegal (p : Params) : Prop :=
  p.base % 4 = 0 ∧ ErrCodesLegal p.errCodes ∧ PortCodesLegal p.portCodes

/-! ### The request and the verdict -/

/-- The sum of the first `n` pulse words, in microseconds (R66). -/
def scanSum (s : State) : Nat → Int
  | 0 => 0
  | n + 1 => scanSum s n + (pulseWord s n).toInt

/-- The number of pulses, `COUNT` as a natural number. -/
def pulseCount (s : State) : Nat := s.count.toInt.toNat

/-- The first `n` words have passed both checks of the scan (R65 to R67). -/
def ScannedTo (s : State) (n : Nat) : Prop :=
  (∀ j, j < n → lengthLegal (pulseWord s j) = true) ∧ scanSum s n ≤ (Config.sumLimit : Int)

/-- The scalar fields have passed the first four checks (R61 to R64). -/
def ScalarsLegal (s : State) : Prop :=
  pinLegal s.pin = true ∧ repeatsLegal s.repeats = true ∧ countLegal s.count = true ∧
    countEven s.count = true

/-- The request is a plan: it satisfies every condition of R71. -/
def PlanLegal (s : State) : Prop := ScalarsLegal s ∧ ScannedTo s (pulseCount s)

/-- The scan's verdict on `n` words from index `j` with prefix sum `x` (R67, R71). -/
def scanVerdict (s : State) : Nat → Nat → Int → Option ErrorKind
  | 0, _, _ => none
  | n + 1, j, x =>
    if lengthLegal (pulseWord s j) = false then some .invalidPulseLength
    else if x + (pulseWord s j).toInt > (Config.sumLimit : Int) then some .invalidTxTime
    else scanVerdict s n (j + 1) (x + (pulseWord s j).toInt)

/-- The decision list of R71: the error of the request, or none. -/
def verdict (s : State) : Option ErrorKind :=
  if pinLegal s.pin = false then some .invalidGpio
  else if repeatsLegal s.repeats = false then some .invalidRepeats
  else if countLegal s.count = false then some .invalidPulseCount
  else if countEven s.count = false then some .pulseTrainOdd
  else scanVerdict s (pulseCount s) 0 0

/-! ### Traces -/

/-- The number of the pin the request names. -/
def requestPin (s : State) : Nat := s.pin.toInt.toNat

/-- The events of the first `n` pulses of a pass (R79, R80, R89). -/
def passEvents (s : State) : Nat → List Event
  | 0 => []
  | n + 1 => passEvents s n ++
      [.wr (requestPin s) (pulseLevel n), .dly (pulseWord s n).toInt.toNat]

/-- The events of `n` whole passes, without the clock readings between them (R89). -/
def passes (s : State) : Nat → List Event
  | 0 => []
  | n + 1 => passes s n ++ passEvents s (pulseCount s)

/-- The events of whole passes, each with the clock's answer after it (R81, R89). -/
def timedPasses (s : State) : List Nat → List Event
  | [] => []
  | v :: vs => passEvents s (pulseCount s) ++ [.now v] ++ timedPasses s vs

/-- An event of the transition trace: a level write or a delay (20_memory.md R41). -/
def isTransition : Event → Bool
  | .wr _ _ | .dly _ => true
  | .cfg _ | .now _ | .setup _ => false

/-- The transition trace (R41, 41_engine.md R88). -/
def transitions (s : State) : List Event := s.trace.filter isTransition

/-- Mode and level of the pin the request names, if that pin exists. -/
def requestedPin (s : State) : Option PinState :=
  (pinSlot s.pin.toInt).map fun j => s.pins[j]

/-! ### Invariants -/

/-- The flags agree with the phase (10_state.md R12, R13; 43_interfaces.md R112): `IDLE` is the
only phase with `BUSY` = 0, a running command has `DONE`, `ERR` and `CFAULT` clear, `CFAULT`
comes with `ERR` and `ERR` with `DONE`, and a `TX` runs only in `READY`. -/
def FlagsCoherent (s : State) : Prop :=
  (s.busy = true ↔ s.phase ≠ .idle) ∧
  (s.busy = true → s.done = false ∧ s.err = false ∧ s.cfault = false) ∧
  (s.cfault = true → s.err = true) ∧ (s.err = true → s.done = true) ∧
  (s.phase ≠ .idle → s.phase ≠ .iSetup → s.initst = .ready)

/-- What has been checked when a phase is reached, and where the loop counters are: the
scheduler runs only on a plan (41_engine.md R75, 40_validator.md R68). -/
def Checked (s : State) : Prop :=
  match s.phase with
  | .idle | .iSetup | .vPin => True
  | .vRep => pinLegal s.pin = true
  | .vCnt => pinLegal s.pin = true ∧ repeatsLegal s.repeats = true
  | .vPar => pinLegal s.pin = true ∧ repeatsLegal s.repeats = true ∧ countLegal s.count = true
  | .vLen => ScalarsLegal s ∧ ScannedTo s s.i ∧ s.i < pulseCount s ∧ s.sum = scanSum s s.i
  | .vSum =>
    ScalarsLegal s ∧ ScannedTo s s.i ∧ s.i < pulseCount s ∧ s.sum = scanSum s s.i ∧
      lengthLegal (pulseWord s s.i) = true
  | .eCfg | .eStamp0 => PlanLegal s
  | .eHold => PlanLegal s ∧ s.i < pulseCount s ∧ (s.r : Int) < s.repeats.toInt
  | .eBudget => PlanLegal s ∧ (s.r : Int) < s.repeats.toInt
  | .eDeassert | .eStamp1 => PlanLegal s ∧ 1 ≤ s.r ∧ (s.r : Int) ≤ s.repeats.toInt

/-- The ranges of `I`, `R` and `SUM` (10_state.md R12, 40_validator.md R72). -/
def CountersBounded (s : State) : Prop :=
  s.i ≤ Config.maxPulseCount ∧ s.r ≤ Config.maxTxRepeats ∧
    0 ≤ s.sum ∧ s.sum ≤ (Config.sumLimit + Config.maxPulseLength : Nat)

/-- The invariant that guards the scheduler. -/
def Guarded (s : State) : Prop := FlagsCoherent s ∧ Checked s ∧ CountersBounded s

/-- The phases between the start stamp and the end stamp. -/
def stamped : Phase → Bool
  | .eHold | .eBudget | .eDeassert | .eStamp1 => true
  | .idle | .iSetup | .vPin | .vRep | .vCnt | .vPar | .vLen | .vSum | .eCfg | .eStamp0 => false

/-- The clock's answers are in order (42_timing.md R97, R98, R102): at level B the previous
answer is not ahead of true time, the start stamp is not after the previous answer, and a
command that ended without error has a non-negative result. -/
def ClockOrdered (s : State) : Prop :=
  (s.params.level = .b → s.lastNow ≤ s.tus / 1000) ∧
  (stamped s.phase = true → s.tStart ≤ s.lastNow) ∧
  (s.done = true → s.err = false → 0 ≤ s.result.toInt)

/-- The request's pin is an output from ENG.CFG on, and LOW from the end of each pass on
(41_engine.md R80, R91); no word is left on the pin port (20_memory.md R34). -/
def PinHeld (s : State) : Prop :=
  s.port = none ∧
  match s.phase with
  | .eStamp0 | .eHold => (requestedPin s).map PinState.mode = some .output
  | .eBudget | .eDeassert | .eStamp1 =>
    requestedPin s = some { mode := .output, level := .low }
  | .idle | .iSetup | .vPin | .vRep | .vCnt | .vPar | .vLen | .vSum | .eCfg => True

/-- The host makes no access and the pin port is empty: the PTD runs undisturbed. -/
def Undisturbed (s : State) : Prop := s.port = none ∧ s.host = []

end Sys2Proof.Machine
end

