-- ==== Sys2Proof/Certificates/Slice0/Obligations.lean ====
section
/-! DEFINITION. The statements about the model, from the numbered rules of spec/. Every draw of
the environment (an overhead, a clock answer, a level) is bound by a quantifier, so each
statement holds for every value the spec leaves open. -/

open Sys2Proof Sys2Proof.Machine

/-! ### Encodings -/

/-- R46, R48, R49, R53: whatever the codes of the five operations and the two levels, if they
tell them apart (R5), decoding the code of an instruction gives that instruction, with every
operand at every value its field holds; the `CTRL` word of `TX.default` is that of `TX` (R55). -/
def Obligations.EncodedInstructionDecodesBack : Prop :=
  ∀ k : PortCodes, PortCodesLegal k →
    ∀ i : Instr, decode k (encode k i) = .ok (if i = .txDefault then .tx else i)

/-- R46, R48, R49, R53: whatever the codes of the operations and the levels, if they tell them
apart (R5), a code that decodes is the code of the instruction it decodes to, but for phase
code 1, where `INIT`'s internal step stands (the model's reading, log entry 10). -/
def Obligations.DecodedCodeEncodesBack : Prop :=
  ∀ k : PortCodes, PortCodesLegal k → ∀ (c : Code) (i : Instr),
    decode k c = .ok i → c ≠ .phase 1 → encode k i = c

/-- Every word of 95_test_vectors.md V72 to V78, the two `CTRL` values of R48 and the phase
codes 2 to 13 of R53 decode, at the codes taken (R49, R50), to what they stand for. -/
def Obligations.SpecWordsDecode : Prop :=
  [0x31000000, 0x22000000, 0x3B000000].map
      (fun w => (decode Config.portCodes (.primitive w)).toOption) =
    [some (.cfg 17), some (.cfg 2), some (.cfg 27)] ∧
  [0x51000001, 0x51000000, 0x42000001, 0x42000000, 0x5B000001, 0x5B000000, 0x56000001,
      0x56000000].map (fun w => (decode Config.portCodes (.primitive w)).toOption) =
    [some (.wr 17 .high), some (.wr 17 .low), some (.wr 2 .high), some (.wr 2 .low),
      some (.wr 27 .high), some (.wr 27 .low), some (.wr 22 .high), some (.wr 22 .low)] ∧
  [0x60000001, 0x60000096, 0x6000012C, 0x600001F4, 0x60000384, 0x600186A0].map
      (fun w => (decode Config.portCodes (.primitive w)).toOption) =
    [some (.dly 1), some (.dly 150), some (.dly 300), some (.dly 500), some (.dly 900),
      some (.dly 100000)] ∧
  [0x80000000, 0x00000000].map (fun w => (decode Config.portCodes (.primitive w)).toOption) =
    [some .now, some .setup] ∧
  [0x00000001, 0x00000002].map (fun w => (decode Config.portCodes (.command w)).toOption) =
    [some .tx, some .init] ∧
  [0x0000001F4, 0x1000001F4].map (fun x => (decode Config.portCodes (.pulse x)).toOption) =
    [some (.holdH 500), some (.holdL 500)] ∧
  [2, 3, 4, 5, 6, 7, 8, 9, 10, 11, 12, 13].map
      (fun c => (decode Config.portCodes (.phase c)).toOption) =
    [some .chkPin, some .chkRep, some .chkCnt, some .chkPar, some .chkLen, some .chkSum,
      some .engCfg, some .engStamp0, some .engHold, some .engBudget, some .engDeassert,
      some .engStamp1]

/-- R52: `CTRL` values other than 1 and 2, words of the pin port whose op is no operation's code
(5 to 7 at the codes taken), phase codes 0, 14 and 15 and pulse words above 17 bits decode to
nothing. -/
def Obligations.ReservedCodesRefused : Prop :=
  (∀ (k : PortCodes) (w : Word), w ≠ 1 → w ≠ 2 →
    decode k (.command w) = .error .reservedCommand) ∧
  (∀ (k : PortCodes) (w : PortWord),
    w.extractLsb' 29 3 ∉ [k.setup, k.cfg, k.wr, k.dly, k.now] →
    decode k (.primitive w) = .error .reservedPrimitive) ∧
  (∀ w : PortWord, 5 ≤ (w.extractLsb' 29 3).toNat →
    decode Config.portCodes (.primitive w) = .error .reservedPrimitive) ∧
  (∀ (k : PortCodes) (c : BitVec 4), c = 0 ∨ c = 14 ∨ c = 15 →
    decode k (.phase c) = .error .noPhaseOperation) ∧
  (∀ (k : PortCodes) (x : BitVec 33), x.extractLsb' 17 15 ≠ 0 →
    decode k (.pulse x) = .error .notPulseWord)

/-! ### The step -/

/-- A step runs the operation it fetches: the word on the pin port; the command the host writes
to `CTRL` while `BUSY` = 0; the operation of the phase, after which the phase visit's own
overhead of time is spent (R12, R14, R34, R101). That the port comes first and the overhead last
is the model's choice (log entries 11 and 14). -/
def Obligations.StepRunsDecodedInstruction : Prop :=
  (∀ (s : State) (w : PortWord) (i : Instr), s.port = some w →
    decode s.params.portCodes (.primitive w) = .ok i → step s = exec i { s with port := none }) ∧
  (∀ (s : State) (v : Word) (rest : List HostMove) (i : Instr), s.port = none →
    s.host = .write (s.params.base + 0x000) 4 v :: rest → s.busy = false →
    decode s.params.portCodes (.command v) = .ok i →
    step s = exec i { s with host := rest }) ∧
  (∀ (s : State) (i : Instr), s.port = none → (s.host = [] ∨ ∃ us rest, s.host = .pass us :: rest) →
    s.phase ≠ .idle → decode s.params.portCodes (.phase (phaseCode s.phase)) = .ok i →
    step s = match exec i { s with host := s.host.tail } with
      | .next t => .next t.spend
      | .fault f => .fault f
      | .refused q => .refused q)

/-- R99, R151: the `IDLE` PTD, with no host access, does nothing; only true time goes by: as
many microseconds as the host's move says, and any number once its moves have ended (the form
of the host's moves is the model's, log entry 15). -/
def Obligations.IdleOnlyLetsTimePass : Prop :=
  ∀ s : State, s.port = none → s.phase = .idle →
    (s.host = [] → ∃ (us : Nat) (o : List Nat) (n : Nat),
      step s = .next { s with tus := s.tus + us, oracle := o, drawn := n }) ∧
    (∀ (us : Nat) (rest : List HostMove), s.host = .pass us :: rest →
      step s = .next { s with host := rest, tus := s.tus + us })

/-! ### Reset -/

/-- R23, R155: the values the spec gives the state after reset. -/
def Obligations.ResetStateIsIdleAndUninitialised : Prop :=
  State.reset.phase = .idle ∧ State.reset.r = 0 ∧ State.reset.i = 0 ∧
  State.reset.busy = false ∧ State.reset.done = false ∧ State.reset.err = false ∧
  State.reset.cfault = false ∧ State.reset.initst = .uninit ∧ State.reset.result = 0 ∧
  State.reset.rcount = 0 ∧ State.reset.sum = 0 ∧ State.reset.trace = [] ∧
  statusWord State.reset = 0 ∧ State.reset.tus = Config.tus0 ∧
  ∀ i, Memory.lookup State.reset.pmem i = none

/-- R23, R155, R156: the reset line. With `BUSY` = 0 the PTD's state takes its reset values; with
`BUSY` = 1 it is refused. That true time, the clock's previous answer and the parameters are
untouched is the model's choice (log entry 16): R155 calls the collaborator's state after reset
unspecified, and R23 gives `TUS` any value. -/
def Obligations.ResetLineRestoresResetValues : Prop :=
  ∀ (s : State) (rest : List HostMove), s.port = none → s.host = .reset :: rest →
    (s.busy = true → step s = .refused .resetWhileBusy) ∧
    (s.busy = false → ∃ t, step s = .next t ∧ t.phase = .idle ∧ t.r = 0 ∧ t.i = 0 ∧
      t.busy = false ∧ t.done = false ∧ t.err = false ∧ t.cfault = false ∧
      t.initst = .uninit ∧ t.result = 0 ∧ t.rcount = 0 ∧ t.sum = 0 ∧ t.trace = [] ∧
      t.tus = s.tus ∧ t.lastNow = s.lastNow ∧ t.params = s.params ∧ t.host = rest ∧
      ∀ i, Memory.lookup t.pmem i = none)

/-! ### Host commands -/

/-- R112: a `CTRL` write of 1 starts a `TX` exactly when `BUSY` = 0 and `INITST` is `READY`;
with `BUSY` = 1 it is ignored; otherwise it is refused. -/
def Obligations.TxStartsOnlyWhenReadyAndIdle : Prop :=
  ∀ (s : State) (rest : List HostMove), s.port = none →
    s.host = .write (s.params.base + 0x000) 4 1 :: rest →
    (s.busy = true → step s = .next { s with host := rest }) ∧
    (s.busy = false → s.initst ≠ .ready → step s = .refused .txNotReady) ∧
    (s.busy = false → s.initst = .ready → step s = .next
      { s with host := rest, busy := true, done := false, err := false, cfault := false,
               phase := .vPin })

/-- R110: the start of a `TX`. -/
def Obligations.TxCommandStarts : Prop :=
  ∀ s : State, s.busy = false → s.initst = .ready →
    exec .tx s = .next { s with busy := true, done := false, err := false, cfault := false,
                                phase := .vPin }

/-- R55: `TX.default` writes 4 to `REPEATS` and starts a `TX`; R112: while `BUSY` = 1 it is
ignored, and where a `TX` is refused so is it. One step is the model's choice (log entry 24). -/
def Obligations.TxDefaultWritesFourRepeats : Prop :=
  ∀ s : State,
    (s.busy = false → s.initst = .ready → exec .txDefault s = .next
      { s with repeats := 4, busy := true, done := false, err := false, cfault := false,
               phase := .vPin }) ∧
    (s.busy = true → exec .txDefault s = .next s) ∧
    (s.busy = false → s.initst ≠ .ready → exec .txDefault s = .refused .txNotReady)

/-- R113: `INIT` with `BUSY` = 0 starts the command; while a `TX` is in flight it is ignored
(R37); its internal step from `READY` or `FATAL` calls nothing and ends the command, with `ERR`
1 exactly when `INITST` is `FATAL`. -/
def Obligations.InitStartsAndIsIdempotent : Prop :=
  (∀ s : State, s.busy = false →
    exec .init s = .next { s with busy := true, done := false, err := false, cfault := false,
                                  phase := .iSetup }) ∧
  (∀ s : State, s.busy = true → s.phase ≠ .iSetup → exec .init s = .next s) ∧
  (∀ s : State, s.busy = true → s.phase = .iSetup → s.initst ≠ .uninit →
    exec .init s = .next
      { s with err := decide (s.initst = .fatal), result := 0, rcount := 0, cfault := false,
               done := true, busy := false, phase := .idle })

/-- R113: the internal step of an `INIT` from `UNINIT` calls `Setup()` once, records its answer
and ends the command; the answer, the pins and the duration are any. -/
def Obligations.InitFromUninitCallsSetup : Prop :=
  ∀ s : State, s.busy = true → s.phase = .iSetup → s.initst = .uninit →
    ∃ (a : SetupAnswer) (ps : Vector PinState 26) (us : Nat) (o : List Nat) (n : Nat),
      exec .init s = .next
        { s with initst := (if a = .ok then .ready else .fatal), err := decide (a = .error),
                 trace := s.trace ++ [.setup a], pins := ps, tus := s.tus + us,
                 oracle := o, drawn := n, result := 0, rcount := 0, cfault := false,
                 done := true, busy := false, phase := .idle }

/-! ### Primitive operations -/

/-- R114: `Cfg(p)` makes the pin an output; if it was one, mode and level are unchanged, else
the level is any. Nothing else changes but the trace and, by at most `OVH_STEP`, true time. -/
def Obligations.CfgMakesPinOutput : Prop :=
  ∀ (s : State) (p : BitVec 5) (j : Fin 26), p.toNat = pinNumber j →
    ∃ (l : Level) (e : Nat) (o : List Nat) (n : Nat), e ≤ s.params.ovhStep ∧
      (s.pins[j].mode = .output → l = s.pins[j].level) ∧
      exec (.cfg p) s = .next
        { s with pins := s.pins.set j { mode := .output, level := l },
                 trace := s.trace ++ [.cfg (pinNumber j)], tus := s.tus + e,
                 oracle := o, drawn := n }

/-- R115: `Wr(p, l)` drives an output pin to the level; the level of a pin that is not an output
is not specified, so any (the model's reading, log entry 12). -/
def Obligations.WrDrivesPin : Prop :=
  ∀ (s : State) (p : BitVec 5) (l : Level) (j : Fin 26), p.toNat = pinNumber j →
    ∃ (l' : Level) (e : Nat) (o : List Nat) (n : Nat), e ≤ s.params.ovhStep ∧
      (s.pins[j].mode = .output → l' = l) ∧
      exec (.wr p l) s = .next
        { s with pins := s.pins.set j { mode := s.pins[j].mode, level := l' },
                 trace := s.trace ++ [.wr (pinNumber j) l], tus := s.tus + e,
                 oracle := o, drawn := n }

/-- R116, R100: `Dly(d)` lets `d` and at most `OVH_DLY` more microseconds pass. R49 and R116 give
`d` from 1 to 100000; that a `d` of 0 or above 100000 that fits its field runs by the same
pseudocode is the model's inference (log entry 28). -/
def Obligations.DlyWaitsAtLeastItsDuration : Prop :=
  ∀ (s : State) (d : BitVec 17), ∃ (e : Nat) (o : List Nat) (n : Nat), e ≤ s.params.ovhDly ∧
    exec (.dly d) s = .next
      { s with trace := s.trace ++ [.dly d.toNat], tus := s.tus + (d.toNat + e),
               oracle := o, drawn := n }

/-- R117, R98, R102: `Now()` answers a value not below the previous answer at level A and
`floor(TUS / 1000)` at level B. -/
def Obligations.NowAnswersTheClock : Prop :=
  ∀ s : State, ∃ (v e : Nat) (o : List Nat) (n : Nat), e ≤ s.params.ovhStep ∧
    (s.params.level = .a → s.lastNow ≤ v) ∧ (s.params.level = .b → v = s.tus / 1000) ∧
    exec .now s = .next
      { s with lastNow := v, trace := s.trace ++ [.now v], tus := s.tus + e,
               oracle := o, drawn := n }

/-- R118: `Setup()` answers `Ok` or `Error` and leaves every pin at any mode and level. -/
def Obligations.SetupAnswersOkOrError : Prop :=
  ∀ s : State, ∃ (a : SetupAnswer) (ps : Vector PinState 26) (us : Nat) (o : List Nat) (n : Nat),
    exec .setup s = .next
      { s with trace := s.trace ++ [.setup a], pins := ps, tus := s.tus + us,
               oracle := o, drawn := n }

/-- R11, R21, R39, R46: there is no pin outside 2 to 27, no pulse word above index 999, and a
word above 17 bits is no pulse instruction; the operations that meet one stop. The stops are the
model's (log entry 20): no rule gives such an operation an effect (R75: none is reached). -/
def Obligations.NothingActsOnWhatDoesNotExist : Prop :=
  (∀ (s : State) (p : BitVec 5) (l : Level), ¬(2 ≤ p.toNat ∧ p.toNat ≤ 27) →
    exec (.cfg p) s = .fault .noSuchPin ∧ exec (.wr p l) s = .fault .noSuchPin) ∧
  (∀ (s : State) (d : BitVec 17), ¬(2 ≤ s.pin.toInt ∧ s.pin.toInt ≤ 27) →
    exec .engCfg s = .fault .noSuchPin ∧ exec .engDeassert s = .fault .noSuchPin ∧
    exec (.holdH d) s = .fault .noSuchPin ∧ exec (.holdL d) s = .fault .noSuchPin) ∧
  (∀ s : State, 1000 ≤ s.i →
    exec .chkLen s = .fault .noSuchPulseWord ∧ exec .chkSum s = .fault .noSuchPulseWord ∧
    exec .engHold s = .fault .noSuchPulseWord) ∧
  (∀ s : State, s.i < 1000 → 2 ^ 17 ≤ (pulseWord s s.i).toNat →
    exec .engHold s = .fault .notAPulseWord)

/-! ### Pulse instructions -/

/-- R79, R84: `HOLDH d` writes HIGH, holds it for `d`, and goes to the next index or, at the
last, to the budget check. For a request pin that is no output R115 does not specify the write;
that it completes, keeps the mode and leaves any level is the model's choice (log entry 12).
R46 and R79 give `d` from 1 to 100000; that a `d` of 0 or above 100000 that fits its field runs
by the same pseudocode is the model's inference (log entry 28). -/
def Obligations.HoldHighDrivesHighThenHolds : Prop :=
  ∀ (s : State) (d : BitVec 17) (j : Fin 26), s.pin.toInt = pinNumber j →
    ∃ (l : Level) (e : Nat) (o : List Nat) (n : Nat), e ≤ s.params.ovhStep + s.params.ovhDly ∧
      (s.pins[j].mode = .output → l = .high) ∧
      exec (.holdH d) s = .next
        { s with pins := s.pins.set j { mode := s.pins[j].mode, level := l },
                 trace := s.trace ++ [.wr (pinNumber j) .high, .dly d.toNat],
                 tus := s.tus + (d.toNat + e), oracle := o, drawn := n,
                 i := if (s.i : Int) + 1 < s.count.toInt then s.i + 1 else s.i,
                 phase := if (s.i : Int) + 1 < s.count.toInt then s.phase else .eBudget }

/-- R80, R84: `HOLDL d` writes LOW, holds it for `d`, and goes on as `HOLDH` does; a request pin
that is no output is as there (R115 does not specify it; log entry 12). R46 and R80 give `d` from
1 to 100000; that a `d` of 0 or above 100000 that fits its field runs by the same pseudocode is
the model's inference (log entry 28). -/
def Obligations.HoldLowDrivesLowThenHolds : Prop :=
  ∀ (s : State) (d : BitVec 17) (j : Fin 26), s.pin.toInt = pinNumber j →
    ∃ (l : Level) (e : Nat) (o : List Nat) (n : Nat), e ≤ s.params.ovhStep + s.params.ovhDly ∧
      (s.pins[j].mode = .output → l = .low) ∧
      exec (.holdL d) s = .next
        { s with pins := s.pins.set j { mode := s.pins[j].mode, level := l },
                 trace := s.trace ++ [.wr (pinNumber j) .low, .dly d.toNat],
                 tus := s.tus + (d.toNat + e), oracle := o, drawn := n,
                 i := if (s.i : Int) + 1 < s.count.toInt then s.i + 1 else s.i,
                 phase := if (s.i : Int) + 1 < s.count.toInt then s.phase else .eBudget }

/-- R84, R51: what `ENG.HOLD` does with a legal word, where the request's pin exists: level by the
parity of `I`, duration the word in microseconds. For a pin that is no output R115 does not
specify the write; that it completes, keeps the mode and leaves any level is the model's choice
(log entry 12). -/
def Obligations.EngHoldPlaysTheWordAtI : Prop :=
  ∀ (s : State) (j : Fin 26), s.pin.toInt = pinNumber j → s.i < 1000 →
    1 ≤ (pulseWord s s.i).toInt → (pulseWord s s.i).toInt ≤ 100000 →
    ∃ (l : Level) (e : Nat) (o : List Nat) (n : Nat), e ≤ s.params.ovhStep + s.params.ovhDly ∧
      (s.pins[j].mode = .output → l = if s.i % 2 = 0 then .high else .low) ∧
      exec .engHold s = .next
        { s with pins := s.pins.set j { mode := s.pins[j].mode, level := l },
                 trace := s.trace ++
                   [.wr (pinNumber j) (if s.i % 2 = 0 then .high else .low),
                    .dly (pulseWord s s.i).toInt.toNat],
                 tus := s.tus + ((pulseWord s s.i).toInt.toNat + e), oracle := o, drawn := n,
                 i := if (s.i : Int) + 1 < s.count.toInt then s.i + 1 else s.i,
                 phase := if (s.i : Int) + 1 < s.count.toInt then s.phase else .eBudget }

/-! ### The checker -/

/-- R61, R53, R140: the pin range check, phase code 2. -/
def Obligations.ChkPinAcceptsTwoToTwentySeven : Prop :=
  (∀ k : PortCodes, decode k (.phase 2) = .ok .chkPin) ∧
  ∀ s : State, exec .chkPin s = .next
    (if 2 ≤ s.pin.toInt ∧ s.pin.toInt ≤ 27 then { s with phase := .vRep }
     else
      { s with result := errCode s.params.errCodes .invalidGpio, err := true, cfault := true,
               rcount := 0, done := true, busy := false, phase := .idle })

/-- R62, R53, R140: the repeat count range check, phase code 3. -/
def Obligations.ChkRepAcceptsOneToTwenty : Prop :=
  (∀ k : PortCodes, decode k (.phase 3) = .ok .chkRep) ∧
  ∀ s : State, exec .chkRep s = .next
    (if 1 ≤ s.repeats.toInt ∧ s.repeats.toInt ≤ 20 then { s with phase := .vCnt }
     else
      { s with result := errCode s.params.errCodes .invalidRepeats, err := true, cfault := true,
               rcount := 0, done := true, busy := false, phase := .idle })

/-- R63, R53, R140: the pulse count range check, phase code 4. -/
def Obligations.ChkCntAcceptsOneToThousand : Prop :=
  (∀ k : PortCodes, decode k (.phase 4) = .ok .chkCnt) ∧
  ∀ s : State, exec .chkCnt s = .next
    (if 1 ≤ s.count.toInt ∧ s.count.toInt ≤ 1000 then { s with phase := .vPar }
     else
      { s with result := errCode s.params.errCodes .invalidPulseCount, err := true, cfault := false,
               rcount := 0, done := true, busy := false, phase := .idle })

/-- R64, R53, R140: the parity check and entry to the scan, phase code 5. -/
def Obligations.ChkParAcceptsEvenCounts : Prop :=
  (∀ k : PortCodes, decode k (.phase 5) = .ok .chkPar) ∧
  ∀ s : State, exec .chkPar s = .next
    (if s.count.toInt % 2 = 0 then { s with sum := 0, i := 0, phase := .vLen }
     else
      { s with result := errCode s.params.errCodes .pulseTrainOdd, err := true, cfault := false,
               rcount := 0, done := true, busy := false, phase := .idle })

/-- R65, R53, R140: the length check of element `I`, phase code 6; the word exists (R11). -/
def Obligations.ChkLenAcceptsOneToHundredThousand : Prop :=
  (∀ k : PortCodes, decode k (.phase 6) = .ok .chkLen) ∧
  ∀ s : State, s.i < 1000 → exec .chkLen s = .next
    (if 0 < (pulseWord s s.i).toInt ∧ (pulseWord s s.i).toInt ≤ 100000 then
      { s with phase := .vSum }
     else
      { s with result := errCode s.params.errCodes .invalidPulseLength, err := true,
               cfault := false, rcount := 0, done := true, busy := false, phase := .idle })

/-- R66, R68, R53, R140: the prefix sum at element `I`, phase code 7, and where the scan goes
from there; the word exists (R11). -/
def Obligations.ChkSumBoundsEveryPrefix : Prop :=
  (∀ k : PortCodes, decode k (.phase 7) = .ok .chkSum) ∧
  ∀ s : State, s.i < 1000 → exec .chkSum s = .next
    (if s.sum + (pulseWord s s.i).toInt > 2000000 then
      { s with sum := s.sum + (pulseWord s s.i).toInt,
               result := errCode s.params.errCodes .invalidTxTime, err := true, cfault := false,
               rcount := 0, done := true, busy := false, phase := .idle }
     else if (s.i : Int) + 1 < s.count.toInt then
      { s with sum := s.sum + (pulseWord s s.i).toInt, i := s.i + 1, phase := .vLen }
     else
      { s with sum := s.sum + (pulseWord s s.i).toInt, i := 0, r := 0, phase := .eCfg })

/-! ### The scheduler -/

/-- R77, R114: `ENG.CFG` configures the request's pin and goes to the start stamp. -/
def Obligations.EngCfgConfiguresTheRequestedPin : Prop :=
  ∀ (s : State) (j : Fin 26), s.pin.toInt = pinNumber j →
    ∃ (l : Level) (e : Nat) (o : List Nat) (n : Nat), e ≤ s.params.ovhStep ∧
      (s.pins[j].mode = .output → l = s.pins[j].level) ∧
      exec .engCfg s = .next
        { s with pins := s.pins.set j { mode := .output, level := l },
                 trace := s.trace ++ [.cfg (pinNumber j)], tus := s.tus + e,
                 oracle := o, drawn := n, phase := .eStamp0 }

/-- R78, R98, R102: `ENG.STAMP0` stamps the start with the clock's answer and clears the loop
counters. -/
def Obligations.EngStampZeroRecordsTheStart : Prop :=
  ∀ s : State, ∃ (v e : Nat) (o : List Nat) (n : Nat), e ≤ s.params.ovhStep ∧
    (s.params.level = .a → s.lastNow ≤ v) ∧ (s.params.level = .b → v = s.tus / 1000) ∧
    exec .engStamp0 s = .next
      { s with tStart := v, r := 0, i := 0, phase := .eHold, lastNow := v,
               trace := s.trace ++ [.now v], tus := s.tus + e, oracle := o, drawn := n }

/-- R81, R96: `ENG.BUDGET` counts the pass and reads the clock; the loop ends when the answer is
more than 2000 ms after the start stamp or all repeats are done, else the next pass begins. -/
def Obligations.EngBudgetStopsAfterTwoSecondsOrAllRepeats : Prop :=
  ∀ s : State, ∃ (v e : Nat) (o : List Nat) (n : Nat), e ≤ s.params.ovhStep ∧
    (s.params.level = .a → s.lastNow ≤ v) ∧ (s.params.level = .b → v = s.tus / 1000) ∧
    exec .engBudget s = .next
      (if v > s.tStart + 2000 ∨ (s.r : Int) + 1 = s.repeats.toInt then
        { s with r := s.r + 1, phase := .eDeassert, lastNow := v,
                 trace := s.trace ++ [.now v], tus := s.tus + e, oracle := o, drawn := n }
       else
        { s with r := s.r + 1, i := 0, phase := .eHold, lastNow := v,
                 trace := s.trace ++ [.now v], tus := s.tus + e, oracle := o, drawn := n })

/-- R82: `ENG.DEASSERT` writes LOW to the request's pin. For a pin that is no output R115 does not
specify the write; that it completes, keeps the mode and leaves any level is the model's choice
(log entry 12). -/
def Obligations.EngDeassertWritesLow : Prop :=
  ∀ (s : State) (j : Fin 26), s.pin.toInt = pinNumber j →
    ∃ (l : Level) (e : Nat) (o : List Nat) (n : Nat), e ≤ s.params.ovhStep ∧
      (s.pins[j].mode = .output → l = .low) ∧
      exec .engDeassert s = .next
        { s with pins := s.pins.set j { mode := s.pins[j].mode, level := l },
                 trace := s.trace ++ [.wr (pinNumber j) .low], tus := s.tus + e,
                 oracle := o, drawn := n, phase := .eStamp1 }

/-- R83, R97: `ENG.STAMP1` stamps the end with the clock's answer and ends the command with the
elapsed milliseconds and the number of passes. R47: an elapsed value that 32 signed bits do not
hold is refused. -/
def Obligations.EngStampOneReturnsTheElapsedTime : Prop :=
  (∀ s : State, -2 ^ 31 ≤ (clockAnswer s : Int) - s.tStart →
    (clockAnswer s : Int) - s.tStart ≤ 2 ^ 31 - 1 →
    ∃ (e : Nat) (o : List Nat) (n : Nat), e ≤ s.params.ovhStep ∧
      exec .engStamp1 s = .next
        { s with tEnd := clockAnswer s,
                 result := BitVec.ofInt Config.argw ((clockAnswer s : Int) - s.tStart),
                 rcount := BitVec.ofNat Config.argw s.r, err := false, cfault := false,
                 done := true, busy := false, phase := .idle, lastNow := clockAnswer s,
                 trace := s.trace ++ [.now (clockAnswer s)], tus := s.tus + e,
                 oracle := o, drawn := n }) ∧
  (∀ s : State, (clockAnswer s : Int) - s.tStart > 2 ^ 31 - 1 →
    exec .engStamp1 s = .refused .elapsedTooWide)

/-! ### Whole-machine rules -/

/-- R25: the PTD writes none of `PIN`, `REPEATS`, `COUNT`, `PMEM`; only the host's part of
`TX.default` writes `REPEATS` (R55). Nor does an instruction write the parameters or the host's
side of the port. -/
def Obligations.NoInstructionWritesTheRequest : Prop :=
  ∀ (i : Instr) (s t : State), exec i s = .next t →
    t.pin = s.pin ∧ t.count = s.count ∧ (∀ k, pulseWord t k = pulseWord s k) ∧
    t.pmem = s.pmem ∧ (i ≠ .txDefault → t.repeats = s.repeats) ∧
    t.params = s.params ∧ t.host = s.host ∧ t.rdata = s.rdata ∧ t.port = s.port ∧
    t.epoch = s.epoch

/-- R70: no check issues a primitive: trace, pins, clock and true time are as before. -/
def Obligations.CheckerIssuesNoPrimitive : Prop :=
  ∀ (i : Instr) (s t : State), i ∈ [Instr.chkPin, .chkRep, .chkCnt, .chkPar, .chkLen, .chkSum] →
    exec i s = .next t →
    t.trace = s.trace ∧ t.pins = s.pins ∧ t.tus = s.tus ∧ t.lastNow = s.lastNow ∧
    t.drawn = s.drawn ∧ t.oracle = s.oracle ∧ t.tStart = s.tStart ∧ t.tEnd = s.tEnd ∧
    t.initst = s.initst

/-- R152: errors arise in the checker only: no pulse, primitive or scheduler operation sets
`ERR` or `CFAULT`, and none but the end of the transmission writes `RESULT`. -/
def Obligations.OnlyTheCheckerRaisesErrors : Prop :=
  ∀ (i : Instr) (s t : State), exec i s = .next t →
    i ∉ [Instr.chkPin, .chkRep, .chkCnt, .chkPar, .chkLen, .chkSum, .init] →
    (t.err = true → s.err = true) ∧ (t.cfault = true → s.cfault = true) ∧
    (i ≠ .engStamp1 → t.result = s.result ∧ t.rcount = s.rcount)

/-- R39: the commands touch only the pin named by `PIN`, and `CFG` and `WR` only the pin they
name; only `Setup()` may leave another pin changed (R118). -/
def Obligations.OnlyTheNamedPinChanges : Prop :=
  ∀ (i : Instr) (s t : State) (k : Fin 26), exec i s = .next t →
    (match i with
      | .setup | .init => False
      | .cfg p | .wr p _ => p.toNat ≠ pinNumber k
      | _ => s.pin.toInt ≠ pinNumber k) →
    t.pins[k] = s.pins[k]

/-- R130, R5: right after reset the seven codes are those of the table, so negative and pairwise
distinct, the other parameters are ones R5 admits, and no step changes a parameter. That `BASE`
is any one address after reset is the model's choice (log entry 19). -/
def Obligations.ErrorCodesNegativeAndDistinct : Prop :=
  ParamsLegal State.reset.params ∧
  [ErrorKind.invalidGpio, .invalidRepeats, .invalidPulseCount, .pulseTrainOdd,
    .invalidPulseLength, .invalidTxTime, .unknown].map (errCode State.reset.params.errCodes) =
    [-1, -2, -3, -4, -5, -6, -7] ∧
  ∀ s t : State, step s = .next t → t.params = s.params

/-- R137: whatever the error codes, if they are negative and distinct (R130), no instruction
leaves the code of `Unknown` in `RESULT` where it was not, in a state whose clock and start stamp
are in order. -/
def Obligations.UnknownIsNeverRaised : Prop :=
  ∀ (i : Instr) (s t : State), exec i s = .next t → ErrCodesLegal s.params.errCodes →
    s.tStart ≤ clockAnswer s → s.result ≠ errCode s.params.errCodes .unknown →
    t.result ≠ errCode s.params.errCodes .unknown

/-- R22, R34: events are only appended to `TRACE`, at most two at an instruction. -/
def Obligations.TraceOnlyGrows : Prop :=
  ∀ (i : Instr) (s t : State), exec i s = .next t →
    ∃ es : List Event, t.trace = s.trace ++ es ∧ es.length ≤ 2

/-- R98, R99: true time never decreases, whoever moves, and neither do the clock's answers, in a
state whose previous answer is in order. -/
def Obligations.TimeNeverDecreases : Prop :=
  ∀ s t : State, step s = .next t → s.tus ≤ t.tus ∧ (ClockOrdered s → s.lastNow ≤ t.lastNow)

/-! ### The host port -/

/-- R15: the fields of `STATUS`. -/
def Obligations.StatusHoldsTheFlags : Prop :=
  ∀ s : State, hostValue 0x004 s = some (statusWord s) ∧
    (statusWord s).getLsbD 0 = s.busy ∧ (statusWord s).getLsbD 1 = s.done ∧
    (statusWord s).getLsbD 2 = s.err ∧ (statusWord s).getLsbD 3 = s.cfault ∧
    ((statusWord s).extractLsb' 4 2).toNat =
      (match s.initst with | .uninit => 0 | .ready => 1 | .fatal => 2) ∧
    (statusWord s).extractLsb' 6 26 = 0

/-- R18: the constant registers, in every state. -/
def Obligations.ConstantRegistersReadTheirValues : Prop :=
  ∀ s : State, [0x020, 0x024, 0x028, 0x02C, 0x030, 0x034, 0x038].map (fun off => hostValue off s) =
    [some 100000, some 1000, some 2000, some 20, some 4, some 2, some 27]

/-- R33, R14, R16, R17: what the other registers and `PMEM` read as; `RESULT` and `RCOUNT` with
`DONE` = 1. -/
def Obligations.RegistersReadTheirContents : Prop :=
  ∀ s : State, hostValue 0x000 s = some 0 ∧ hostValue 0x008 s = some s.pin ∧
    hostValue 0x00C s = some s.repeats ∧ hostValue 0x010 s = some s.count ∧
    hostValue 0x01C s = some 0 ∧
    (s.done = true → hostValue 0x014 s = some s.result ∧ hostValue 0x018 s = some s.rcount) ∧
    ∀ i, i < 1000 → hostValue (0x1000 + 4 * i) s = some (pulseWord s i)

/-- R32: a host read changes nothing but what it returned to the host. That the PTD takes no step
of its own beside it is the model's choice (log entry 15). -/
def Obligations.HostReadsHaveNoSideEffect : Prop :=
  ∀ (s : State) (off : Nat) (rest : List HostMove) (w : Word), s.port = none →
    s.host = .read (s.params.base + off) 4 :: rest → hostValue off s = some w →
    step s = .next { s with host := rest, rdata := w }

/-- R37: while `BUSY` = 1 every host write to a request register, `PMEM` or `CTRL` is ignored. -/
def Obligations.HostWritesIgnoredWhileBusy : Prop :=
  ∀ (s : State) (off : Nat) (v : Word) (rest : List HostMove), s.port = none → s.busy = true →
    s.host = .write (s.params.base + off) 4 v :: rest →
    off ∈ [0x000, 0x008, 0x00C, 0x010] ∨ (∃ i, i < 1000 ∧ off = 0x1000 + 4 * i) →
    step s = .next { s with host := rest }

/-- R10, R11, R33: while `BUSY` = 0 a host write to a request register or to a word of `PMEM`
stores the value there and leaves every other word and everything else alone. -/
def Obligations.HostWritesStoreTheRequest : Prop :=
  ∀ (s : State) (v : Word) (rest : List HostMove), s.port = none → s.busy = false →
    (s.host = .write (s.params.base + 0x008) 4 v :: rest →
      step s = .next { s with host := rest, pin := v }) ∧
    (s.host = .write (s.params.base + 0x00C) 4 v :: rest →
      step s = .next { s with host := rest, repeats := v }) ∧
    (s.host = .write (s.params.base + 0x010) 4 v :: rest →
      step s = .next { s with host := rest, count := v }) ∧
    ∀ i, i < 1000 → s.host = .write (s.params.base + (0x1000 + 4 * i)) 4 v :: rest →
      ∃ m, step s = .next { s with host := rest, pmem := m } ∧
        ∀ k, pulseWord { s with host := rest, pmem := m } k = if k = i then v else pulseWord s k

/-- R33: writes to read-only registers, to offset 0x01C and above `PMEM` change nothing. -/
def Obligations.ReadOnlyWritesIgnored : Prop :=
  ∀ (s : State) (off : Nat) (v : Word) (rest : List HostMove), s.port = none →
    s.host = .write (s.params.base + off) 4 v :: rest →
    off ∈ [0x004, 0x014, 0x018, 0x01C, 0x020, 0x024, 0x028, 0x02C, 0x030, 0x034, 0x038] ∨
      (∃ i, 1000 ≤ i ∧ off = 0x1000 + 4 * i) →
    step s = .next { s with host := rest }

/-- R31: an access that is misaligned, not one word wide, or between 0x03C and 0xFFF is refused;
so is a read at 0x1FA0 and above (U8), an access below `BASE` (the model's reading of R33, log
entry 19), and a `CTRL` write of a reserved value while `BUSY` = 0 (R52). -/
def Obligations.MeaninglessAccessesRefused : Prop :=
  (∀ (s : State) (off bytes : Nat) (v : Word) (rest : List HostMove), s.port = none →
    bytes ≠ 4 ∨ off % 4 ≠ 0 ∨ (0x03C ≤ off ∧ off < 0x1000) →
    (s.host = .write (s.params.base + off) bytes v :: rest → step s = .refused .badHostAccess) ∧
    (s.host = .read (s.params.base + off) bytes :: rest → step s = .refused .badHostAccess)) ∧
  (∀ (s : State) (i : Nat) (rest : List HostMove), s.port = none → 1000 ≤ i →
    s.host = .read (s.params.base + (0x1000 + 4 * i)) 4 :: rest →
    step s = .refused .badHostAccess) ∧
  (∀ (s : State) (addr bytes : Nat) (v : Word) (rest : List HostMove), s.port = none →
    addr < s.params.base →
    (s.host = .write addr bytes v :: rest → step s = .refused .badHostAccess) ∧
    (s.host = .read addr bytes :: rest → step s = .refused .badHostAccess)) ∧
  (∀ (s : State) (v : Word) (rest : List HostMove), s.port = none → s.busy = false →
    s.host = .write (s.params.base + 0x000) 4 v :: rest → v ≠ 1 → v ≠ 2 →
    step s = .refused (.undecodable .reservedCommand))

/-! ### Invariants -/

/-- The invariants hold right after reset. -/
def Obligations.InvariantsHoldAtReset : Prop :=
  Memory.wf State.reset.pmem = true ∧ Guarded State.reset ∧ ClockOrdered State.reset ∧
    PinHeld State.reset

/-- R11: every step keeps `PMEM`'s canonical form. -/
def Obligations.StepKeepsMemoryCanonical : Prop :=
  ∀ s t : State, Memory.wf s.pmem = true → step s = .next t → Memory.wf t.pmem = true

/-- R75, R68, R72: every step keeps the guard: the scheduler runs only on a checked plan, and
the counters stay in their ranges. -/
def Obligations.StepKeepsSchedulerGuarded : Prop :=
  ∀ s t : State, Guarded s → step s = .next t → Guarded t

/-- R97, R98, R102: every step keeps the clock in order, and so a result without error
non-negative. -/
def Obligations.StepKeepsClockOrdered : Prop :=
  ∀ s t : State, ClockOrdered s → step s = .next t → ClockOrdered t

/-- R80, R82, R91: every step keeps the request's pin an output during the scheduler, and LOW
between passes and after them. -/
def Obligations.StepKeepsPinHeld : Prop :=
  ∀ s t : State, Guarded s → PinHeld s → step s = .next t → PinHeld t

/-- R75, R39: a guarded machine never faults. -/
def Obligations.GuardedMachineNeverFaults : Prop :=
  ∀ (s : State) (f : Fault), Guarded s → s.port = none → step s ≠ .fault f

/-- R83, R91: when the end of a transmission completes, the request's pin is an output and LOW,
every other pin is as it was, and the command has ended without error. -/
def Obligations.TransmissionLeavesPinLow : Prop :=
  ∀ s t : State, PinHeld s → Undisturbed s → s.phase = .eStamp1 → step s = .next t →
    requestedPin t = some { mode := .output, level := .low } ∧ t.pins = s.pins ∧
    t.phase = .idle ∧ t.done = true ∧ t.busy = false ∧ t.err = false ∧
    t.rcount = BitVec.ofNat Config.argw s.r

/-! ### Whole commands -/

/-- R71: the decision list gives no error exactly for a legal request. -/
def Obligations.VerdictAcceptsExactlyLegalPlans : Prop :=
  ∀ s : State, verdict s = none ↔ PlanLegal s

/-- R60, R67, R70, R71, R167: the checker, run undisturbed from its first check, ends within
4 + 2 * `COUNT` steps, at most 2004, in the decision list's verdict, touching neither the pins
nor the trace. -/
def Obligations.CheckerReachesTheVerdict : Prop :=
  ∀ s : State, Undisturbed s → s.phase = .vPin →
    ∃ (k : Nat) (t : State), k ≤ 4 + 2 * pulseCount s ∧ k ≤ 2004 ∧
      Host.Core.run core k s = .next t ∧
      t.trace = s.trace ∧ t.pins = s.pins ∧ t.pin = s.pin ∧ t.repeats = s.repeats ∧
      t.count = s.count ∧ t.pmem = s.pmem ∧ t.initst = s.initst ∧
      match verdict s with
      | some e =>
        t.phase = .idle ∧ t.busy = false ∧ t.done = true ∧ t.err = true ∧
          t.cfault = callerFault e ∧ t.result = errCode s.params.errCodes e ∧ t.rcount = 0
      | none => t.phase = .eCfg ∧ t.i = 0 ∧ t.r = 0 ∧ PlanLegal t

/-- R84, R86, R89: a pass, run undisturbed from its first pulse, plays every pulse of a legal
plan in order, one a step, and ends at the budget check. -/
def Obligations.PassPlaysEveryPulseInOrder : Prop :=
  ∀ s : State, Undisturbed s → PlanLegal s → s.phase = .eHold → s.i = 0 →
    ∃ t : State, Host.Core.run core (pulseCount s) s = .next t ∧ t.phase = .eBudget ∧
      t.trace = s.trace ++ passEvents s (pulseCount s) ∧ t.r = s.r ∧ t.tStart = s.tStart ∧
      t.result = s.result ∧ t.busy = s.busy

/-- R85, R88, R89, R90: a transmission of a legal plan, run undisturbed from `ENG.CFG`, reaches
its end stamp. With `ts` the clock's answers after the passes, the trace grows by `CFG`, the
start stamp, a whole pass before each answer, and a final LOW; the number of passes is the least
whose answer is more than 2000 ms after the start stamp or that is `REPEATS`; and the pin is an
output and LOW. -/
def Obligations.TransmissionPlaysWholePassesThenLow : Prop :=
  ∀ s : State, Undisturbed s → PlanLegal s → s.phase = .eCfg →
    ∃ (n : Nat) (t : State) (ts : List Nat), Host.Core.run core n s = .next t ∧
      t.phase = .eStamp1 ∧ t.r = ts.length ∧ 1 ≤ t.r ∧ (t.r : Int) ≤ s.repeats.toInt ∧
      t.trace = s.trace ++ [.cfg (requestPin s), .now t.tStart] ++ timedPasses s ts ++
        [.wr (requestPin s) .low] ∧
      (∀ (j v : Nat), ts[j]? = some v →
        (v > t.tStart + 2000 ∨ (j : Int) + 1 = s.repeats.toInt ↔ j + 1 = t.r)) ∧
      transitions t = transitions s ++ passes s t.r ++ [.wr (requestPin s) .low] ∧
      requestedPin t = some { mode := .output, level := .low }
end

