-- ==== Sys2Proof/Laws/Memory.lean ====
section
/-! SUPPORT. `PMEM`: a read after a write gives the value written, a write leaves every other
word alone, and a write keeps the canonical form. -/

namespace Sys2Proof.Machine

@[simp] theorem Memory.lookup_nil (i : Nat) : Memory.lookup [] i = none := rfl

theorem Memory.lookup_cons (j : Nat) (w : Word) (rest : Memory) (i : Nat) :
    Memory.lookup ((j, w) :: rest) i = if i = j then some w else Memory.lookup rest i := rfl

theorem Memory.lookup_store (m : Memory) (i : Nat) (v : Word) (k : Nat) :
    Memory.lookup (Memory.store m i v) k = if k = i then some v else Memory.lookup m k := by
  induction m with
  | nil => simp [Memory.store, Memory.lookup_cons]
  | cons head rest ih =>
    obtain ⟨j, w⟩ := head
    simp only [Memory.store]
    split
    · simp [Memory.lookup_cons]
    · split
      · simp only [Memory.lookup_cons]
        split <;> simp_all
      · simp only [Memory.lookup_cons, ih]
        split <;> split <;> simp_all

@[simp] theorem Memory.lookup_store_same (m : Memory) (i : Nat) (v : Word) :
    Memory.lookup (Memory.store m i v) i = some v := by simp [Memory.lookup_store]

theorem Memory.lookup_store_other (m : Memory) (i : Nat) (v : Word) (k : Nat) (h : k ≠ i) :
    Memory.lookup (Memory.store m i v) k = Memory.lookup m k := by
  simp [Memory.lookup_store, h]

theorem Memory.store_risingFrom (m : Memory) (lo i : Nat) (v : Word)
    (hlo : lo ≤ i) (hi : i < Config.maxPulseCount) (h : Memory.risingFrom lo m = true) :
    Memory.risingFrom lo (Memory.store m i v) = true := by
  induction m generalizing lo with
  | nil => simp [Memory.store, Memory.risingFrom, hlo, hi]
  | cons head rest ih =>
    obtain ⟨j, w⟩ := head
    simp only [Memory.risingFrom, Bool.and_eq_true, decide_eq_true_eq] at h
    simp only [Memory.store]
    split
    · simp only [Memory.risingFrom, Bool.and_eq_true, decide_eq_true_eq]
      exact ⟨⟨hlo, hi⟩, ⟨by omega, h.1.2⟩, h.2⟩
    · split
      · subst i
        simp only [Memory.risingFrom, Bool.and_eq_true, decide_eq_true_eq]
        exact h
      · simp only [Memory.risingFrom, Bool.and_eq_true, decide_eq_true_eq]
        exact ⟨h.1, ih (j + 1) (by omega) h.2⟩

/-- A write within the capacity keeps the canonical form. -/
theorem Memory.store_wf (m : Memory) (i : Nat) (v : Word) (hi : i < Config.maxPulseCount)
    (h : Memory.wf m = true) : Memory.wf (Memory.store m i v) = true :=
  Memory.store_risingFrom m 0 i v (Nat.zero_le i) hi h

/-- The memory after reset is in canonical form. -/
theorem Memory.reset_wf : Memory.wf State.reset.pmem = true := rfl

end Sys2Proof.Machine
end

