-- ==== Sys2Proof/Laws/State.lean ====
section
/-! SUPPORT. One lemma per field per update of the state, so that no proof unfolds a record
update: what each update writes, and that it leaves the other fields alone. -/

namespace Sys2Proof.Machine

variable (s : State)

/-! ### `consume` -/

@[simp] theorem State.consume_pin (n : Nat) : (s.consume n).pin = s.pin := rfl
@[simp] theorem State.consume_repeats (n : Nat) : (s.consume n).repeats = s.repeats := rfl
@[simp] theorem State.consume_count (n : Nat) : (s.consume n).count = s.count := rfl
@[simp] theorem State.consume_pmem (n : Nat) : (s.consume n).pmem = s.pmem := rfl
@[simp] theorem State.consume_phase (n : Nat) : (s.consume n).phase = s.phase := rfl
@[simp] theorem State.consume_r (n : Nat) : (s.consume n).r = s.r := rfl
@[simp] theorem State.consume_i (n : Nat) : (s.consume n).i = s.i := rfl
@[simp] theorem State.consume_busy (n : Nat) : (s.consume n).busy = s.busy := rfl
@[simp] theorem State.consume_done (n : Nat) : (s.consume n).done = s.done := rfl
@[simp] theorem State.consume_err (n : Nat) : (s.consume n).err = s.err := rfl
@[simp] theorem State.consume_cfault (n : Nat) : (s.consume n).cfault = s.cfault := rfl
@[simp] theorem State.consume_result (n : Nat) : (s.consume n).result = s.result := rfl
@[simp] theorem State.consume_rcount (n : Nat) : (s.consume n).rcount = s.rcount := rfl
@[simp] theorem State.consume_sum (n : Nat) : (s.consume n).sum = s.sum := rfl
@[simp] theorem State.consume_tStart (n : Nat) : (s.consume n).tStart = s.tStart := rfl
@[simp] theorem State.consume_tEnd (n : Nat) : (s.consume n).tEnd = s.tEnd := rfl
@[simp] theorem State.consume_initst (n : Nat) : (s.consume n).initst = s.initst := rfl
@[simp] theorem State.consume_pins (n : Nat) : (s.consume n).pins = s.pins := rfl
@[simp] theorem State.consume_tus (n : Nat) : (s.consume n).tus = s.tus := rfl
@[simp] theorem State.consume_lastNow (n : Nat) : (s.consume n).lastNow = s.lastNow := rfl
@[simp] theorem State.consume_trace (n : Nat) : (s.consume n).trace = s.trace := rfl
@[simp] theorem State.consume_params (n : Nat) : (s.consume n).params = s.params := rfl
@[simp] theorem State.consume_port (n : Nat) : (s.consume n).port = s.port := rfl
@[simp] theorem State.consume_host (n : Nat) : (s.consume n).host = s.host := rfl
@[simp] theorem State.consume_rdata (n : Nat) : (s.consume n).rdata = s.rdata := rfl
@[simp] theorem State.consume_oracle (n : Nat) : (s.consume n).oracle = s.oracle.drop n := rfl
@[simp] theorem State.consume_drawn (n : Nat) : (s.consume n).drawn = s.drawn + n := rfl
@[simp] theorem State.consume_epoch (n : Nat) : (s.consume n).epoch = s.epoch := rfl

/-! ### `addTime` -/

@[simp] theorem State.addTime_pin (n : Nat) : (s.addTime n).pin = s.pin := rfl
@[simp] theorem State.addTime_repeats (n : Nat) : (s.addTime n).repeats = s.repeats := rfl
@[simp] theorem State.addTime_count (n : Nat) : (s.addTime n).count = s.count := rfl
@[simp] theorem State.addTime_pmem (n : Nat) : (s.addTime n).pmem = s.pmem := rfl
@[simp] theorem State.addTime_phase (n : Nat) : (s.addTime n).phase = s.phase := rfl
@[simp] theorem State.addTime_r (n : Nat) : (s.addTime n).r = s.r := rfl
@[simp] theorem State.addTime_i (n : Nat) : (s.addTime n).i = s.i := rfl
@[simp] theorem State.addTime_busy (n : Nat) : (s.addTime n).busy = s.busy := rfl
@[simp] theorem State.addTime_done (n : Nat) : (s.addTime n).done = s.done := rfl
@[simp] theorem State.addTime_err (n : Nat) : (s.addTime n).err = s.err := rfl
@[simp] theorem State.addTime_cfault (n : Nat) : (s.addTime n).cfault = s.cfault := rfl
@[simp] theorem State.addTime_result (n : Nat) : (s.addTime n).result = s.result := rfl
@[simp] theorem State.addTime_rcount (n : Nat) : (s.addTime n).rcount = s.rcount := rfl
@[simp] theorem State.addTime_sum (n : Nat) : (s.addTime n).sum = s.sum := rfl
@[simp] theorem State.addTime_tStart (n : Nat) : (s.addTime n).tStart = s.tStart := rfl
@[simp] theorem State.addTime_tEnd (n : Nat) : (s.addTime n).tEnd = s.tEnd := rfl
@[simp] theorem State.addTime_initst (n : Nat) : (s.addTime n).initst = s.initst := rfl
@[simp] theorem State.addTime_pins (n : Nat) : (s.addTime n).pins = s.pins := rfl
@[simp] theorem State.addTime_tus (n : Nat) : (s.addTime n).tus = s.tus + n := rfl
@[simp] theorem State.addTime_lastNow (n : Nat) : (s.addTime n).lastNow = s.lastNow := rfl
@[simp] theorem State.addTime_trace (n : Nat) : (s.addTime n).trace = s.trace := rfl
@[simp] theorem State.addTime_params (n : Nat) : (s.addTime n).params = s.params := rfl
@[simp] theorem State.addTime_port (n : Nat) : (s.addTime n).port = s.port := rfl
@[simp] theorem State.addTime_host (n : Nat) : (s.addTime n).host = s.host := rfl
@[simp] theorem State.addTime_rdata (n : Nat) : (s.addTime n).rdata = s.rdata := rfl
@[simp] theorem State.addTime_oracle (n : Nat) : (s.addTime n).oracle = s.oracle := rfl
@[simp] theorem State.addTime_drawn (n : Nat) : (s.addTime n).drawn = s.drawn := rfl
@[simp] theorem State.addTime_epoch (n : Nat) : (s.addTime n).epoch = s.epoch := rfl

/-! ### `log` -/

@[simp] theorem State.log_pin (e : Event) : (s.log e).pin = s.pin := rfl
@[simp] theorem State.log_repeats (e : Event) : (s.log e).repeats = s.repeats := rfl
@[simp] theorem State.log_count (e : Event) : (s.log e).count = s.count := rfl
@[simp] theorem State.log_pmem (e : Event) : (s.log e).pmem = s.pmem := rfl
@[simp] theorem State.log_phase (e : Event) : (s.log e).phase = s.phase := rfl
@[simp] theorem State.log_r (e : Event) : (s.log e).r = s.r := rfl
@[simp] theorem State.log_i (e : Event) : (s.log e).i = s.i := rfl
@[simp] theorem State.log_busy (e : Event) : (s.log e).busy = s.busy := rfl
@[simp] theorem State.log_done (e : Event) : (s.log e).done = s.done := rfl
@[simp] theorem State.log_err (e : Event) : (s.log e).err = s.err := rfl
@[simp] theorem State.log_cfault (e : Event) : (s.log e).cfault = s.cfault := rfl
@[simp] theorem State.log_result (e : Event) : (s.log e).result = s.result := rfl
@[simp] theorem State.log_rcount (e : Event) : (s.log e).rcount = s.rcount := rfl
@[simp] theorem State.log_sum (e : Event) : (s.log e).sum = s.sum := rfl
@[simp] theorem State.log_tStart (e : Event) : (s.log e).tStart = s.tStart := rfl
@[simp] theorem State.log_tEnd (e : Event) : (s.log e).tEnd = s.tEnd := rfl
@[simp] theorem State.log_initst (e : Event) : (s.log e).initst = s.initst := rfl
@[simp] theorem State.log_pins (e : Event) : (s.log e).pins = s.pins := rfl
@[simp] theorem State.log_tus (e : Event) : (s.log e).tus = s.tus := rfl
@[simp] theorem State.log_lastNow (e : Event) : (s.log e).lastNow = s.lastNow := rfl
@[simp] theorem State.log_trace (e : Event) : (s.log e).trace = s.trace ++ [e] := rfl
@[simp] theorem State.log_params (e : Event) : (s.log e).params = s.params := rfl
@[simp] theorem State.log_port (e : Event) : (s.log e).port = s.port := rfl
@[simp] theorem State.log_host (e : Event) : (s.log e).host = s.host := rfl
@[simp] theorem State.log_rdata (e : Event) : (s.log e).rdata = s.rdata := rfl
@[simp] theorem State.log_oracle (e : Event) : (s.log e).oracle = s.oracle := rfl
@[simp] theorem State.log_drawn (e : Event) : (s.log e).drawn = s.drawn := rfl
@[simp] theorem State.log_epoch (e : Event) : (s.log e).epoch = s.epoch := rfl

/-! ### `setPin` -/

@[simp] theorem State.setPin_pin (j : Fin 26) (p : PinState) : (s.setPin j p).pin = s.pin := rfl
@[simp] theorem State.setPin_repeats (j : Fin 26) (p : PinState) : (s.setPin j p).repeats = s.repeats := rfl
@[simp] theorem State.setPin_count (j : Fin 26) (p : PinState) : (s.setPin j p).count = s.count := rfl
@[simp] theorem State.setPin_pmem (j : Fin 26) (p : PinState) : (s.setPin j p).pmem = s.pmem := rfl
@[simp] theorem State.setPin_phase (j : Fin 26) (p : PinState) : (s.setPin j p).phase = s.phase := rfl
@[simp] theorem State.setPin_r (j : Fin 26) (p : PinState) : (s.setPin j p).r = s.r := rfl
@[simp] theorem State.setPin_i (j : Fin 26) (p : PinState) : (s.setPin j p).i = s.i := rfl
@[simp] theorem State.setPin_busy (j : Fin 26) (p : PinState) : (s.setPin j p).busy = s.busy := rfl
@[simp] theorem State.setPin_done (j : Fin 26) (p : PinState) : (s.setPin j p).done = s.done := rfl
@[simp] theorem State.setPin_err (j : Fin 26) (p : PinState) : (s.setPin j p).err = s.err := rfl
@[simp] theorem State.setPin_cfault (j : Fin 26) (p : PinState) : (s.setPin j p).cfault = s.cfault := rfl
@[simp] theorem State.setPin_result (j : Fin 26) (p : PinState) : (s.setPin j p).result = s.result := rfl
@[simp] theorem State.setPin_rcount (j : Fin 26) (p : PinState) : (s.setPin j p).rcount = s.rcount := rfl
@[simp] theorem State.setPin_sum (j : Fin 26) (p : PinState) : (s.setPin j p).sum = s.sum := rfl
@[simp] theorem State.setPin_tStart (j : Fin 26) (p : PinState) : (s.setPin j p).tStart = s.tStart := rfl
@[simp] theorem State.setPin_tEnd (j : Fin 26) (p : PinState) : (s.setPin j p).tEnd = s.tEnd := rfl
@[simp] theorem State.setPin_initst (j : Fin 26) (p : PinState) : (s.setPin j p).initst = s.initst := rfl
@[simp] theorem State.setPin_pins (j : Fin 26) (p : PinState) : (s.setPin j p).pins = s.pins.set j p := rfl
@[simp] theorem State.setPin_tus (j : Fin 26) (p : PinState) : (s.setPin j p).tus = s.tus := rfl
@[simp] theorem State.setPin_lastNow (j : Fin 26) (p : PinState) : (s.setPin j p).lastNow = s.lastNow := rfl
@[simp] theorem State.setPin_trace (j : Fin 26) (p : PinState) : (s.setPin j p).trace = s.trace := rfl
@[simp] theorem State.setPin_params (j : Fin 26) (p : PinState) : (s.setPin j p).params = s.params := rfl
@[simp] theorem State.setPin_port (j : Fin 26) (p : PinState) : (s.setPin j p).port = s.port := rfl
@[simp] theorem State.setPin_host (j : Fin 26) (p : PinState) : (s.setPin j p).host = s.host := rfl
@[simp] theorem State.setPin_rdata (j : Fin 26) (p : PinState) : (s.setPin j p).rdata = s.rdata := rfl
@[simp] theorem State.setPin_oracle (j : Fin 26) (p : PinState) : (s.setPin j p).oracle = s.oracle := rfl
@[simp] theorem State.setPin_drawn (j : Fin 26) (p : PinState) : (s.setPin j p).drawn = s.drawn := rfl
@[simp] theorem State.setPin_epoch (j : Fin 26) (p : PinState) : (s.setPin j p).epoch = s.epoch := rfl

/-! ### `start` -/

@[simp] theorem State.start_pin (p : Phase) : (s.start p).pin = s.pin := rfl
@[simp] theorem State.start_repeats (p : Phase) : (s.start p).repeats = s.repeats := rfl
@[simp] theorem State.start_count (p : Phase) : (s.start p).count = s.count := rfl
@[simp] theorem State.start_pmem (p : Phase) : (s.start p).pmem = s.pmem := rfl
@[simp] theorem State.start_phase (p : Phase) : (s.start p).phase = p := rfl
@[simp] theorem State.start_r (p : Phase) : (s.start p).r = s.r := rfl
@[simp] theorem State.start_i (p : Phase) : (s.start p).i = s.i := rfl
@[simp] theorem State.start_busy (p : Phase) : (s.start p).busy = true := rfl
@[simp] theorem State.start_done (p : Phase) : (s.start p).done = false := rfl
@[simp] theorem State.start_err (p : Phase) : (s.start p).err = false := rfl
@[simp] theorem State.start_cfault (p : Phase) : (s.start p).cfault = false := rfl
@[simp] theorem State.start_result (p : Phase) : (s.start p).result = s.result := rfl
@[simp] theorem State.start_rcount (p : Phase) : (s.start p).rcount = s.rcount := rfl
@[simp] theorem State.start_sum (p : Phase) : (s.start p).sum = s.sum := rfl
@[simp] theorem State.start_tStart (p : Phase) : (s.start p).tStart = s.tStart := rfl
@[simp] theorem State.start_tEnd (p : Phase) : (s.start p).tEnd = s.tEnd := rfl
@[simp] theorem State.start_initst (p : Phase) : (s.start p).initst = s.initst := rfl
@[simp] theorem State.start_pins (p : Phase) : (s.start p).pins = s.pins := rfl
@[simp] theorem State.start_tus (p : Phase) : (s.start p).tus = s.tus := rfl
@[simp] theorem State.start_lastNow (p : Phase) : (s.start p).lastNow = s.lastNow := rfl
@[simp] theorem State.start_trace (p : Phase) : (s.start p).trace = s.trace := rfl
@[simp] theorem State.start_params (p : Phase) : (s.start p).params = s.params := rfl
@[simp] theorem State.start_port (p : Phase) : (s.start p).port = s.port := rfl
@[simp] theorem State.start_host (p : Phase) : (s.start p).host = s.host := rfl
@[simp] theorem State.start_rdata (p : Phase) : (s.start p).rdata = s.rdata := rfl
@[simp] theorem State.start_oracle (p : Phase) : (s.start p).oracle = s.oracle := rfl
@[simp] theorem State.start_drawn (p : Phase) : (s.start p).drawn = s.drawn := rfl
@[simp] theorem State.start_epoch (p : Phase) : (s.start p).epoch = s.epoch := rfl

/-! ### `finish` -/

@[simp] theorem State.finish_pin (e c : Bool) : (s.finish e c).pin = s.pin := rfl
@[simp] theorem State.finish_repeats (e c : Bool) : (s.finish e c).repeats = s.repeats := rfl
@[simp] theorem State.finish_count (e c : Bool) : (s.finish e c).count = s.count := rfl
@[simp] theorem State.finish_pmem (e c : Bool) : (s.finish e c).pmem = s.pmem := rfl
@[simp] theorem State.finish_phase (e c : Bool) : (s.finish e c).phase = .idle := rfl
@[simp] theorem State.finish_r (e c : Bool) : (s.finish e c).r = s.r := rfl
@[simp] theorem State.finish_i (e c : Bool) : (s.finish e c).i = s.i := rfl
@[simp] theorem State.finish_busy (e c : Bool) : (s.finish e c).busy = false := rfl
@[simp] theorem State.finish_done (e c : Bool) : (s.finish e c).done = true := rfl
@[simp] theorem State.finish_err (e c : Bool) : (s.finish e c).err = e := rfl
@[simp] theorem State.finish_cfault (e c : Bool) : (s.finish e c).cfault = c := rfl
@[simp] theorem State.finish_result (e c : Bool) : (s.finish e c).result = s.result := rfl
@[simp] theorem State.finish_rcount (e c : Bool) : (s.finish e c).rcount = s.rcount := rfl
@[simp] theorem State.finish_sum (e c : Bool) : (s.finish e c).sum = s.sum := rfl
@[simp] theorem State.finish_tStart (e c : Bool) : (s.finish e c).tStart = s.tStart := rfl
@[simp] theorem State.finish_tEnd (e c : Bool) : (s.finish e c).tEnd = s.tEnd := rfl
@[simp] theorem State.finish_initst (e c : Bool) : (s.finish e c).initst = s.initst := rfl
@[simp] theorem State.finish_pins (e c : Bool) : (s.finish e c).pins = s.pins := rfl
@[simp] theorem State.finish_tus (e c : Bool) : (s.finish e c).tus = s.tus := rfl
@[simp] theorem State.finish_lastNow (e c : Bool) : (s.finish e c).lastNow = s.lastNow := rfl
@[simp] theorem State.finish_trace (e c : Bool) : (s.finish e c).trace = s.trace := rfl
@[simp] theorem State.finish_params (e c : Bool) : (s.finish e c).params = s.params := rfl
@[simp] theorem State.finish_port (e c : Bool) : (s.finish e c).port = s.port := rfl
@[simp] theorem State.finish_host (e c : Bool) : (s.finish e c).host = s.host := rfl
@[simp] theorem State.finish_rdata (e c : Bool) : (s.finish e c).rdata = s.rdata := rfl
@[simp] theorem State.finish_oracle (e c : Bool) : (s.finish e c).oracle = s.oracle := rfl
@[simp] theorem State.finish_drawn (e c : Bool) : (s.finish e c).drawn = s.drawn := rfl
@[simp] theorem State.finish_epoch (e c : Bool) : (s.finish e c).epoch = s.epoch := rfl

/-! ### `spend` -/

@[simp] theorem State.spend_pin : (s.spend).pin = s.pin := rfl
@[simp] theorem State.spend_repeats : (s.spend).repeats = s.repeats := rfl
@[simp] theorem State.spend_count : (s.spend).count = s.count := rfl
@[simp] theorem State.spend_pmem : (s.spend).pmem = s.pmem := rfl
@[simp] theorem State.spend_phase : (s.spend).phase = s.phase := rfl
@[simp] theorem State.spend_r : (s.spend).r = s.r := rfl
@[simp] theorem State.spend_i : (s.spend).i = s.i := rfl
@[simp] theorem State.spend_busy : (s.spend).busy = s.busy := rfl
@[simp] theorem State.spend_done : (s.spend).done = s.done := rfl
@[simp] theorem State.spend_err : (s.spend).err = s.err := rfl
@[simp] theorem State.spend_cfault : (s.spend).cfault = s.cfault := rfl
@[simp] theorem State.spend_result : (s.spend).result = s.result := rfl
@[simp] theorem State.spend_rcount : (s.spend).rcount = s.rcount := rfl
@[simp] theorem State.spend_sum : (s.spend).sum = s.sum := rfl
@[simp] theorem State.spend_tStart : (s.spend).tStart = s.tStart := rfl
@[simp] theorem State.spend_tEnd : (s.spend).tEnd = s.tEnd := rfl
@[simp] theorem State.spend_initst : (s.spend).initst = s.initst := rfl
@[simp] theorem State.spend_pins : (s.spend).pins = s.pins := rfl
@[simp] theorem State.spend_tus : (s.spend).tus = s.tus + overhead s.params.ovhStep s.peek := rfl
@[simp] theorem State.spend_lastNow : (s.spend).lastNow = s.lastNow := rfl
@[simp] theorem State.spend_trace : (s.spend).trace = s.trace := rfl
@[simp] theorem State.spend_params : (s.spend).params = s.params := rfl
@[simp] theorem State.spend_port : (s.spend).port = s.port := rfl
@[simp] theorem State.spend_host : (s.spend).host = s.host := rfl
@[simp] theorem State.spend_rdata : (s.spend).rdata = s.rdata := rfl
@[simp] theorem State.spend_oracle : (s.spend).oracle = s.oracle.drop 1 := rfl
@[simp] theorem State.spend_drawn : (s.spend).drawn = s.drawn + 1 := rfl
@[simp] theorem State.spend_epoch : (s.spend).epoch = s.epoch := rfl

/-! ### `delayFor` -/

@[simp] theorem delayFor_pin (d : Nat) : (delayFor d s).pin = s.pin := rfl
@[simp] theorem delayFor_repeats (d : Nat) : (delayFor d s).repeats = s.repeats := rfl
@[simp] theorem delayFor_count (d : Nat) : (delayFor d s).count = s.count := rfl
@[simp] theorem delayFor_pmem (d : Nat) : (delayFor d s).pmem = s.pmem := rfl
@[simp] theorem delayFor_phase (d : Nat) : (delayFor d s).phase = s.phase := rfl
@[simp] theorem delayFor_r (d : Nat) : (delayFor d s).r = s.r := rfl
@[simp] theorem delayFor_i (d : Nat) : (delayFor d s).i = s.i := rfl
@[simp] theorem delayFor_busy (d : Nat) : (delayFor d s).busy = s.busy := rfl
@[simp] theorem delayFor_done (d : Nat) : (delayFor d s).done = s.done := rfl
@[simp] theorem delayFor_err (d : Nat) : (delayFor d s).err = s.err := rfl
@[simp] theorem delayFor_cfault (d : Nat) : (delayFor d s).cfault = s.cfault := rfl
@[simp] theorem delayFor_result (d : Nat) : (delayFor d s).result = s.result := rfl
@[simp] theorem delayFor_rcount (d : Nat) : (delayFor d s).rcount = s.rcount := rfl
@[simp] theorem delayFor_sum (d : Nat) : (delayFor d s).sum = s.sum := rfl
@[simp] theorem delayFor_tStart (d : Nat) : (delayFor d s).tStart = s.tStart := rfl
@[simp] theorem delayFor_tEnd (d : Nat) : (delayFor d s).tEnd = s.tEnd := rfl
@[simp] theorem delayFor_initst (d : Nat) : (delayFor d s).initst = s.initst := rfl
@[simp] theorem delayFor_pins (d : Nat) : (delayFor d s).pins = s.pins := rfl
@[simp] theorem delayFor_tus (d : Nat) : (delayFor d s).tus = s.tus + (d + overhead s.params.ovhDly s.peek) := rfl
@[simp] theorem delayFor_lastNow (d : Nat) : (delayFor d s).lastNow = s.lastNow := rfl
@[simp] theorem delayFor_trace (d : Nat) : (delayFor d s).trace = s.trace ++ [.dly d] := rfl
@[simp] theorem delayFor_params (d : Nat) : (delayFor d s).params = s.params := rfl
@[simp] theorem delayFor_port (d : Nat) : (delayFor d s).port = s.port := rfl
@[simp] theorem delayFor_host (d : Nat) : (delayFor d s).host = s.host := rfl
@[simp] theorem delayFor_rdata (d : Nat) : (delayFor d s).rdata = s.rdata := rfl
@[simp] theorem delayFor_oracle (d : Nat) : (delayFor d s).oracle = s.oracle.drop 1 := rfl
@[simp] theorem delayFor_drawn (d : Nat) : (delayFor d s).drawn = s.drawn + 1 := rfl
@[simp] theorem delayFor_epoch (d : Nat) : (delayFor d s).epoch = s.epoch := rfl

/-! ### `readClock` -/

@[simp] theorem readClock_pin : (readClock s).pin = s.pin := by simp [readClock]
@[simp] theorem readClock_repeats : (readClock s).repeats = s.repeats := by simp [readClock]
@[simp] theorem readClock_count : (readClock s).count = s.count := by simp [readClock]
@[simp] theorem readClock_pmem : (readClock s).pmem = s.pmem := by simp [readClock]
@[simp] theorem readClock_phase : (readClock s).phase = s.phase := by simp [readClock]
@[simp] theorem readClock_r : (readClock s).r = s.r := by simp [readClock]
@[simp] theorem readClock_i : (readClock s).i = s.i := by simp [readClock]
@[simp] theorem readClock_busy : (readClock s).busy = s.busy := by simp [readClock]
@[simp] theorem readClock_done : (readClock s).done = s.done := by simp [readClock]
@[simp] theorem readClock_err : (readClock s).err = s.err := by simp [readClock]
@[simp] theorem readClock_cfault : (readClock s).cfault = s.cfault := by simp [readClock]
@[simp] theorem readClock_result : (readClock s).result = s.result := by simp [readClock]
@[simp] theorem readClock_rcount : (readClock s).rcount = s.rcount := by simp [readClock]
@[simp] theorem readClock_sum : (readClock s).sum = s.sum := by simp [readClock]
@[simp] theorem readClock_tStart : (readClock s).tStart = s.tStart := by simp [readClock]
@[simp] theorem readClock_tEnd : (readClock s).tEnd = s.tEnd := by simp [readClock]
@[simp] theorem readClock_initst : (readClock s).initst = s.initst := by simp [readClock]
@[simp] theorem readClock_pins : (readClock s).pins = s.pins := by simp [readClock]
@[simp] theorem readClock_lastNow : (readClock s).lastNow = clockAnswer s := by simp [readClock]
@[simp] theorem readClock_trace : (readClock s).trace = s.trace ++ [.now (clockAnswer s)] := by simp [readClock]
@[simp] theorem readClock_params : (readClock s).params = s.params := by simp [readClock]
@[simp] theorem readClock_port : (readClock s).port = s.port := by simp [readClock]
@[simp] theorem readClock_host : (readClock s).host = s.host := by simp [readClock]
@[simp] theorem readClock_rdata : (readClock s).rdata = s.rdata := by simp [readClock]
@[simp] theorem readClock_epoch : (readClock s).epoch = s.epoch := by simp [readClock]

/-! ### `runSetup` -/

@[simp] theorem runSetup_pin : (runSetup s).pin = s.pin := rfl
@[simp] theorem runSetup_repeats : (runSetup s).repeats = s.repeats := rfl
@[simp] theorem runSetup_count : (runSetup s).count = s.count := rfl
@[simp] theorem runSetup_pmem : (runSetup s).pmem = s.pmem := rfl
@[simp] theorem runSetup_phase : (runSetup s).phase = s.phase := rfl
@[simp] theorem runSetup_r : (runSetup s).r = s.r := rfl
@[simp] theorem runSetup_i : (runSetup s).i = s.i := rfl
@[simp] theorem runSetup_busy : (runSetup s).busy = s.busy := rfl
@[simp] theorem runSetup_done : (runSetup s).done = s.done := rfl
@[simp] theorem runSetup_err : (runSetup s).err = s.err := rfl
@[simp] theorem runSetup_cfault : (runSetup s).cfault = s.cfault := rfl
@[simp] theorem runSetup_result : (runSetup s).result = s.result := rfl
@[simp] theorem runSetup_rcount : (runSetup s).rcount = s.rcount := rfl
@[simp] theorem runSetup_sum : (runSetup s).sum = s.sum := rfl
@[simp] theorem runSetup_tStart : (runSetup s).tStart = s.tStart := rfl
@[simp] theorem runSetup_tEnd : (runSetup s).tEnd = s.tEnd := rfl
@[simp] theorem runSetup_initst : (runSetup s).initst = s.initst := rfl
@[simp] theorem runSetup_pins : (runSetup s).pins = pinsOfDraw (s.drawAt 1) := rfl
@[simp] theorem runSetup_tus : (runSetup s).tus = s.tus + s.drawAt 2 := rfl
@[simp] theorem runSetup_lastNow : (runSetup s).lastNow = s.lastNow := rfl
@[simp] theorem runSetup_trace : (runSetup s).trace = s.trace ++ [.setup (setupAnswer s)] := rfl
@[simp] theorem runSetup_params : (runSetup s).params = s.params := rfl
@[simp] theorem runSetup_port : (runSetup s).port = s.port := rfl
@[simp] theorem runSetup_host : (runSetup s).host = s.host := rfl
@[simp] theorem runSetup_rdata : (runSetup s).rdata = s.rdata := rfl
@[simp] theorem runSetup_oracle : (runSetup s).oracle = s.oracle.drop 3 := rfl
@[simp] theorem runSetup_drawn : (runSetup s).drawn = s.drawn + 3 := rfl
@[simp] theorem runSetup_epoch : (runSetup s).epoch = s.epoch := rfl

/-! ### `raise` -/

@[simp] theorem raise_pin (k : ErrorKind) : (raise k s).pin = s.pin := rfl
@[simp] theorem raise_repeats (k : ErrorKind) : (raise k s).repeats = s.repeats := rfl
@[simp] theorem raise_count (k : ErrorKind) : (raise k s).count = s.count := rfl
@[simp] theorem raise_pmem (k : ErrorKind) : (raise k s).pmem = s.pmem := rfl
@[simp] theorem raise_phase (k : ErrorKind) : (raise k s).phase = .idle := rfl
@[simp] theorem raise_r (k : ErrorKind) : (raise k s).r = s.r := rfl
@[simp] theorem raise_i (k : ErrorKind) : (raise k s).i = s.i := rfl
@[simp] theorem raise_busy (k : ErrorKind) : (raise k s).busy = false := rfl
@[simp] theorem raise_done (k : ErrorKind) : (raise k s).done = true := rfl
@[simp] theorem raise_err (k : ErrorKind) : (raise k s).err = true := rfl
@[simp] theorem raise_cfault (k : ErrorKind) : (raise k s).cfault = callerFault k := rfl
@[simp] theorem raise_result (k : ErrorKind) : (raise k s).result = errCode s.params.errCodes k := rfl
@[simp] theorem raise_rcount (k : ErrorKind) : (raise k s).rcount = 0 := rfl
@[simp] theorem raise_sum (k : ErrorKind) : (raise k s).sum = s.sum := rfl
@[simp] theorem raise_tStart (k : ErrorKind) : (raise k s).tStart = s.tStart := rfl
@[simp] theorem raise_tEnd (k : ErrorKind) : (raise k s).tEnd = s.tEnd := rfl
@[simp] theorem raise_initst (k : ErrorKind) : (raise k s).initst = s.initst := rfl
@[simp] theorem raise_pins (k : ErrorKind) : (raise k s).pins = s.pins := rfl
@[simp] theorem raise_tus (k : ErrorKind) : (raise k s).tus = s.tus := rfl
@[simp] theorem raise_lastNow (k : ErrorKind) : (raise k s).lastNow = s.lastNow := rfl
@[simp] theorem raise_trace (k : ErrorKind) : (raise k s).trace = s.trace := rfl
@[simp] theorem raise_params (k : ErrorKind) : (raise k s).params = s.params := rfl
@[simp] theorem raise_port (k : ErrorKind) : (raise k s).port = s.port := rfl
@[simp] theorem raise_host (k : ErrorKind) : (raise k s).host = s.host := rfl
@[simp] theorem raise_rdata (k : ErrorKind) : (raise k s).rdata = s.rdata := rfl
@[simp] theorem raise_oracle (k : ErrorKind) : (raise k s).oracle = s.oracle := rfl
@[simp] theorem raise_drawn (k : ErrorKind) : (raise k s).drawn = s.drawn := rfl
@[simp] theorem raise_epoch (k : ErrorKind) : (raise k s).epoch = s.epoch := rfl

/-! ### `endInit` -/

@[simp] theorem endInit_pin (st : InitState) : (endInit st s).pin = s.pin := rfl
@[simp] theorem endInit_repeats (st : InitState) : (endInit st s).repeats = s.repeats := rfl
@[simp] theorem endInit_count (st : InitState) : (endInit st s).count = s.count := rfl
@[simp] theorem endInit_pmem (st : InitState) : (endInit st s).pmem = s.pmem := rfl
@[simp] theorem endInit_phase (st : InitState) : (endInit st s).phase = .idle := rfl
@[simp] theorem endInit_r (st : InitState) : (endInit st s).r = s.r := rfl
@[simp] theorem endInit_i (st : InitState) : (endInit st s).i = s.i := rfl
@[simp] theorem endInit_busy (st : InitState) : (endInit st s).busy = false := rfl
@[simp] theorem endInit_done (st : InitState) : (endInit st s).done = true := rfl
@[simp] theorem endInit_err (st : InitState) : (endInit st s).err = decide (st = .fatal) := rfl
@[simp] theorem endInit_cfault (st : InitState) : (endInit st s).cfault = false := rfl
@[simp] theorem endInit_result (st : InitState) : (endInit st s).result = 0 := rfl
@[simp] theorem endInit_rcount (st : InitState) : (endInit st s).rcount = 0 := rfl
@[simp] theorem endInit_sum (st : InitState) : (endInit st s).sum = s.sum := rfl
@[simp] theorem endInit_tStart (st : InitState) : (endInit st s).tStart = s.tStart := rfl
@[simp] theorem endInit_tEnd (st : InitState) : (endInit st s).tEnd = s.tEnd := rfl
@[simp] theorem endInit_initst (st : InitState) : (endInit st s).initst = st := rfl
@[simp] theorem endInit_pins (st : InitState) : (endInit st s).pins = s.pins := rfl
@[simp] theorem endInit_tus (st : InitState) : (endInit st s).tus = s.tus := rfl
@[simp] theorem endInit_lastNow (st : InitState) : (endInit st s).lastNow = s.lastNow := rfl
@[simp] theorem endInit_trace (st : InitState) : (endInit st s).trace = s.trace := rfl
@[simp] theorem endInit_params (st : InitState) : (endInit st s).params = s.params := rfl
@[simp] theorem endInit_port (st : InitState) : (endInit st s).port = s.port := rfl
@[simp] theorem endInit_host (st : InitState) : (endInit st s).host = s.host := rfl
@[simp] theorem endInit_rdata (st : InitState) : (endInit st s).rdata = s.rdata := rfl
@[simp] theorem endInit_oracle (st : InitState) : (endInit st s).oracle = s.oracle := rfl
@[simp] theorem endInit_drawn (st : InitState) : (endInit st s).drawn = s.drawn := rfl
@[simp] theorem endInit_epoch (st : InitState) : (endInit st s).epoch = s.epoch := rfl

/-! ### `cfgPin` -/

@[simp] theorem cfgPin_pin (j : Fin 26) : (cfgPin j s).pin = s.pin := by unfold cfgPin; split <;> simp
@[simp] theorem cfgPin_repeats (j : Fin 26) : (cfgPin j s).repeats = s.repeats := by unfold cfgPin; split <;> simp
@[simp] theorem cfgPin_count (j : Fin 26) : (cfgPin j s).count = s.count := by unfold cfgPin; split <;> simp
@[simp] theorem cfgPin_pmem (j : Fin 26) : (cfgPin j s).pmem = s.pmem := by unfold cfgPin; split <;> simp
@[simp] theorem cfgPin_phase (j : Fin 26) : (cfgPin j s).phase = s.phase := by unfold cfgPin; split <;> simp
@[simp] theorem cfgPin_r (j : Fin 26) : (cfgPin j s).r = s.r := by unfold cfgPin; split <;> simp
@[simp] theorem cfgPin_i (j : Fin 26) : (cfgPin j s).i = s.i := by unfold cfgPin; split <;> simp
@[simp] theorem cfgPin_busy (j : Fin 26) : (cfgPin j s).busy = s.busy := by unfold cfgPin; split <;> simp
@[simp] theorem cfgPin_done (j : Fin 26) : (cfgPin j s).done = s.done := by unfold cfgPin; split <;> simp
@[simp] theorem cfgPin_err (j : Fin 26) : (cfgPin j s).err = s.err := by unfold cfgPin; split <;> simp
@[simp] theorem cfgPin_cfault (j : Fin 26) : (cfgPin j s).cfault = s.cfault := by unfold cfgPin; split <;> simp
@[simp] theorem cfgPin_result (j : Fin 26) : (cfgPin j s).result = s.result := by unfold cfgPin; split <;> simp
@[simp] theorem cfgPin_rcount (j : Fin 26) : (cfgPin j s).rcount = s.rcount := by unfold cfgPin; split <;> simp
@[simp] theorem cfgPin_sum (j : Fin 26) : (cfgPin j s).sum = s.sum := by unfold cfgPin; split <;> simp
@[simp] theorem cfgPin_tStart (j : Fin 26) : (cfgPin j s).tStart = s.tStart := by unfold cfgPin; split <;> simp
@[simp] theorem cfgPin_tEnd (j : Fin 26) : (cfgPin j s).tEnd = s.tEnd := by unfold cfgPin; split <;> simp
@[simp] theorem cfgPin_initst (j : Fin 26) : (cfgPin j s).initst = s.initst := by unfold cfgPin; split <;> simp
@[simp] theorem cfgPin_lastNow (j : Fin 26) : (cfgPin j s).lastNow = s.lastNow := by unfold cfgPin; split <;> simp
@[simp] theorem cfgPin_trace (j : Fin 26) : (cfgPin j s).trace = s.trace ++ [.cfg (pinNumber j)] := by unfold cfgPin; split <;> simp
@[simp] theorem cfgPin_params (j : Fin 26) : (cfgPin j s).params = s.params := by unfold cfgPin; split <;> simp
@[simp] theorem cfgPin_port (j : Fin 26) : (cfgPin j s).port = s.port := by unfold cfgPin; split <;> simp
@[simp] theorem cfgPin_host (j : Fin 26) : (cfgPin j s).host = s.host := by unfold cfgPin; split <;> simp
@[simp] theorem cfgPin_rdata (j : Fin 26) : (cfgPin j s).rdata = s.rdata := by unfold cfgPin; split <;> simp
@[simp] theorem cfgPin_epoch (j : Fin 26) : (cfgPin j s).epoch = s.epoch := by unfold cfgPin; split <;> simp

/-! ### `wrPin` -/

@[simp] theorem wrPin_pin (j : Fin 26) (l : Level) : (wrPin j l s).pin = s.pin := by unfold wrPin; split <;> simp
@[simp] theorem wrPin_repeats (j : Fin 26) (l : Level) : (wrPin j l s).repeats = s.repeats := by unfold wrPin; split <;> simp
@[simp] theorem wrPin_count (j : Fin 26) (l : Level) : (wrPin j l s).count = s.count := by unfold wrPin; split <;> simp
@[simp] theorem wrPin_pmem (j : Fin 26) (l : Level) : (wrPin j l s).pmem = s.pmem := by unfold wrPin; split <;> simp
@[simp] theorem wrPin_phase (j : Fin 26) (l : Level) : (wrPin j l s).phase = s.phase := by unfold wrPin; split <;> simp
@[simp] theorem wrPin_r (j : Fin 26) (l : Level) : (wrPin j l s).r = s.r := by unfold wrPin; split <;> simp
@[simp] theorem wrPin_i (j : Fin 26) (l : Level) : (wrPin j l s).i = s.i := by unfold wrPin; split <;> simp
@[simp] theorem wrPin_busy (j : Fin 26) (l : Level) : (wrPin j l s).busy = s.busy := by unfold wrPin; split <;> simp
@[simp] theorem wrPin_done (j : Fin 26) (l : Level) : (wrPin j l s).done = s.done := by unfold wrPin; split <;> simp
@[simp] theorem wrPin_err (j : Fin 26) (l : Level) : (wrPin j l s).err = s.err := by unfold wrPin; split <;> simp
@[simp] theorem wrPin_cfault (j : Fin 26) (l : Level) : (wrPin j l s).cfault = s.cfault := by unfold wrPin; split <;> simp
@[simp] theorem wrPin_result (j : Fin 26) (l : Level) : (wrPin j l s).result = s.result := by unfold wrPin; split <;> simp
@[simp] theorem wrPin_rcount (j : Fin 26) (l : Level) : (wrPin j l s).rcount = s.rcount := by unfold wrPin; split <;> simp
@[simp] theorem wrPin_sum (j : Fin 26) (l : Level) : (wrPin j l s).sum = s.sum := by unfold wrPin; split <;> simp
@[simp] theorem wrPin_tStart (j : Fin 26) (l : Level) : (wrPin j l s).tStart = s.tStart := by unfold wrPin; split <;> simp
@[simp] theorem wrPin_tEnd (j : Fin 26) (l : Level) : (wrPin j l s).tEnd = s.tEnd := by unfold wrPin; split <;> simp
@[simp] theorem wrPin_initst (j : Fin 26) (l : Level) : (wrPin j l s).initst = s.initst := by unfold wrPin; split <;> simp
@[simp] theorem wrPin_lastNow (j : Fin 26) (l : Level) : (wrPin j l s).lastNow = s.lastNow := by unfold wrPin; split <;> simp
@[simp] theorem wrPin_trace (j : Fin 26) (l : Level) : (wrPin j l s).trace = s.trace ++ [.wr (pinNumber j) l] := by unfold wrPin; split <;> simp
@[simp] theorem wrPin_params (j : Fin 26) (l : Level) : (wrPin j l s).params = s.params := by unfold wrPin; split <;> simp
@[simp] theorem wrPin_port (j : Fin 26) (l : Level) : (wrPin j l s).port = s.port := by unfold wrPin; split <;> simp
@[simp] theorem wrPin_host (j : Fin 26) (l : Level) : (wrPin j l s).host = s.host := by unfold wrPin; split <;> simp
@[simp] theorem wrPin_rdata (j : Fin 26) (l : Level) : (wrPin j l s).rdata = s.rdata := by unfold wrPin; split <;> simp
@[simp] theorem wrPin_epoch (j : Fin 26) (l : Level) : (wrPin j l s).epoch = s.epoch := by unfold wrPin; split <;> simp

/-! ### `pulseSuccessor` -/

@[simp] theorem pulseSuccessor_pin : (pulseSuccessor s).pin = s.pin := by unfold pulseSuccessor; split <;> rfl
@[simp] theorem pulseSuccessor_repeats : (pulseSuccessor s).repeats = s.repeats := by unfold pulseSuccessor; split <;> rfl
@[simp] theorem pulseSuccessor_count : (pulseSuccessor s).count = s.count := by unfold pulseSuccessor; split <;> rfl
@[simp] theorem pulseSuccessor_pmem : (pulseSuccessor s).pmem = s.pmem := by unfold pulseSuccessor; split <;> rfl
@[simp] theorem pulseSuccessor_r : (pulseSuccessor s).r = s.r := by unfold pulseSuccessor; split <;> rfl
@[simp] theorem pulseSuccessor_busy : (pulseSuccessor s).busy = s.busy := by unfold pulseSuccessor; split <;> rfl
@[simp] theorem pulseSuccessor_done : (pulseSuccessor s).done = s.done := by unfold pulseSuccessor; split <;> rfl
@[simp] theorem pulseSuccessor_err : (pulseSuccessor s).err = s.err := by unfold pulseSuccessor; split <;> rfl
@[simp] theorem pulseSuccessor_cfault : (pulseSuccessor s).cfault = s.cfault := by unfold pulseSuccessor; split <;> rfl
@[simp] theorem pulseSuccessor_result : (pulseSuccessor s).result = s.result := by unfold pulseSuccessor; split <;> rfl
@[simp] theorem pulseSuccessor_rcount : (pulseSuccessor s).rcount = s.rcount := by unfold pulseSuccessor; split <;> rfl
@[simp] theorem pulseSuccessor_sum : (pulseSuccessor s).sum = s.sum := by unfold pulseSuccessor; split <;> rfl
@[simp] theorem pulseSuccessor_tStart : (pulseSuccessor s).tStart = s.tStart := by unfold pulseSuccessor; split <;> rfl
@[simp] theorem pulseSuccessor_tEnd : (pulseSuccessor s).tEnd = s.tEnd := by unfold pulseSuccessor; split <;> rfl
@[simp] theorem pulseSuccessor_initst : (pulseSuccessor s).initst = s.initst := by unfold pulseSuccessor; split <;> rfl
@[simp] theorem pulseSuccessor_pins : (pulseSuccessor s).pins = s.pins := by unfold pulseSuccessor; split <;> rfl
@[simp] theorem pulseSuccessor_tus : (pulseSuccessor s).tus = s.tus := by unfold pulseSuccessor; split <;> rfl
@[simp] theorem pulseSuccessor_lastNow : (pulseSuccessor s).lastNow = s.lastNow := by unfold pulseSuccessor; split <;> rfl
@[simp] theorem pulseSuccessor_trace : (pulseSuccessor s).trace = s.trace := by unfold pulseSuccessor; split <;> rfl
@[simp] theorem pulseSuccessor_params : (pulseSuccessor s).params = s.params := by unfold pulseSuccessor; split <;> rfl
@[simp] theorem pulseSuccessor_port : (pulseSuccessor s).port = s.port := by unfold pulseSuccessor; split <;> rfl
@[simp] theorem pulseSuccessor_host : (pulseSuccessor s).host = s.host := by unfold pulseSuccessor; split <;> rfl
@[simp] theorem pulseSuccessor_rdata : (pulseSuccessor s).rdata = s.rdata := by unfold pulseSuccessor; split <;> rfl
@[simp] theorem pulseSuccessor_oracle : (pulseSuccessor s).oracle = s.oracle := by unfold pulseSuccessor; split <;> rfl
@[simp] theorem pulseSuccessor_drawn : (pulseSuccessor s).drawn = s.drawn := by unfold pulseSuccessor; split <;> rfl
@[simp] theorem pulseSuccessor_epoch : (pulseSuccessor s).epoch = s.epoch := by unfold pulseSuccessor; split <;> rfl

/-! ### `afterPass` -/

@[simp] theorem afterPass_pin (t : Nat) : (afterPass t s).pin = s.pin := by unfold afterPass; split <;> [rfl; split <;> rfl]
@[simp] theorem afterPass_repeats (t : Nat) : (afterPass t s).repeats = s.repeats := by unfold afterPass; split <;> [rfl; split <;> rfl]
@[simp] theorem afterPass_count (t : Nat) : (afterPass t s).count = s.count := by unfold afterPass; split <;> [rfl; split <;> rfl]
@[simp] theorem afterPass_pmem (t : Nat) : (afterPass t s).pmem = s.pmem := by unfold afterPass; split <;> [rfl; split <;> rfl]
@[simp] theorem afterPass_r (t : Nat) : (afterPass t s).r = s.r := by unfold afterPass; split <;> [rfl; split <;> rfl]
@[simp] theorem afterPass_busy (t : Nat) : (afterPass t s).busy = s.busy := by unfold afterPass; split <;> [rfl; split <;> rfl]
@[simp] theorem afterPass_done (t : Nat) : (afterPass t s).done = s.done := by unfold afterPass; split <;> [rfl; split <;> rfl]
@[simp] theorem afterPass_err (t : Nat) : (afterPass t s).err = s.err := by unfold afterPass; split <;> [rfl; split <;> rfl]
@[simp] theorem afterPass_cfault (t : Nat) : (afterPass t s).cfault = s.cfault := by unfold afterPass; split <;> [rfl; split <;> rfl]
@[simp] theorem afterPass_result (t : Nat) : (afterPass t s).result = s.result := by unfold afterPass; split <;> [rfl; split <;> rfl]
@[simp] theorem afterPass_rcount (t : Nat) : (afterPass t s).rcount = s.rcount := by unfold afterPass; split <;> [rfl; split <;> rfl]
@[simp] theorem afterPass_sum (t : Nat) : (afterPass t s).sum = s.sum := by unfold afterPass; split <;> [rfl; split <;> rfl]
@[simp] theorem afterPass_tStart (t : Nat) : (afterPass t s).tStart = s.tStart := by unfold afterPass; split <;> [rfl; split <;> rfl]
@[simp] theorem afterPass_tEnd (t : Nat) : (afterPass t s).tEnd = s.tEnd := by unfold afterPass; split <;> [rfl; split <;> rfl]
@[simp] theorem afterPass_initst (t : Nat) : (afterPass t s).initst = s.initst := by unfold afterPass; split <;> [rfl; split <;> rfl]
@[simp] theorem afterPass_pins (t : Nat) : (afterPass t s).pins = s.pins := by unfold afterPass; split <;> [rfl; split <;> rfl]
@[simp] theorem afterPass_tus (t : Nat) : (afterPass t s).tus = s.tus := by unfold afterPass; split <;> [rfl; split <;> rfl]
@[simp] theorem afterPass_lastNow (t : Nat) : (afterPass t s).lastNow = s.lastNow := by unfold afterPass; split <;> [rfl; split <;> rfl]
@[simp] theorem afterPass_trace (t : Nat) : (afterPass t s).trace = s.trace := by unfold afterPass; split <;> [rfl; split <;> rfl]
@[simp] theorem afterPass_params (t : Nat) : (afterPass t s).params = s.params := by unfold afterPass; split <;> [rfl; split <;> rfl]
@[simp] theorem afterPass_port (t : Nat) : (afterPass t s).port = s.port := by unfold afterPass; split <;> [rfl; split <;> rfl]
@[simp] theorem afterPass_host (t : Nat) : (afterPass t s).host = s.host := by unfold afterPass; split <;> [rfl; split <;> rfl]
@[simp] theorem afterPass_rdata (t : Nat) : (afterPass t s).rdata = s.rdata := by unfold afterPass; split <;> [rfl; split <;> rfl]
@[simp] theorem afterPass_oracle (t : Nat) : (afterPass t s).oracle = s.oracle := by unfold afterPass; split <;> [rfl; split <;> rfl]
@[simp] theorem afterPass_drawn (t : Nat) : (afterPass t s).drawn = s.drawn := by unfold afterPass; split <;> [rfl; split <;> rfl]
@[simp] theorem afterPass_epoch (t : Nat) : (afterPass t s).epoch = s.epoch := by unfold afterPass; split <;> [rfl; split <;> rfl]

end Sys2Proof.Machine
end

