-- ==== Sys2Proof/Laws/Ops.lean ====
section
/-! SUPPORT. What each shared operation can do, said once: the bounds of an overhead, which pin
a number names, what the primitives do to the pins and to time, how a command ends. -/

namespace Sys2Proof.Machine

/-! ### Constants -/

@[simp] theorem sumLimit_val : Config.sumLimit = 2000000 := rfl
@[simp] theorem maxPulseLength_val : Config.maxPulseLength = 100000 := rfl
@[simp] theorem maxPulseCount_val : Config.maxPulseCount = 1000 := rfl
@[simp] theorem maxTxTime_val : Config.maxTxTime = 2000 := rfl
@[simp] theorem maxTxRepeats_val : Config.maxTxRepeats = 20 := rfl
@[simp] theorem defaultRepeats_val : Config.defaultRepeats = 4 := rfl
@[simp] theorem pinMin_val : Config.pinMin = 2 := rfl
@[simp] theorem pinMax_val : Config.pinMax = 27 := rfl

@[simp] theorem offCtrl_val : Config.offCtrl = 0x000 := rfl
@[simp] theorem offStatus_val : Config.offStatus = 0x004 := rfl
@[simp] theorem offPin_val : Config.offPin = 0x008 := rfl
@[simp] theorem offRepeats_val : Config.offRepeats = 0x00C := rfl
@[simp] theorem offCount_val : Config.offCount = 0x010 := rfl
@[simp] theorem offResult_val : Config.offResult = 0x014 := rfl
@[simp] theorem offRcount_val : Config.offRcount = 0x018 := rfl
@[simp] theorem offReserved_val : Config.offReserved = 0x01C := rfl
@[simp] theorem offMaxPulseLength_val : Config.offMaxPulseLength = 0x020 := rfl
@[simp] theorem offMaxPulseCount_val : Config.offMaxPulseCount = 0x024 := rfl
@[simp] theorem offMaxTxTime_val : Config.offMaxTxTime = 0x028 := rfl
@[simp] theorem offMaxTxRepeats_val : Config.offMaxTxRepeats = 0x02C := rfl
@[simp] theorem offDefaultRepeats_val : Config.offDefaultRepeats = 0x030 := rfl
@[simp] theorem offPinMin_val : Config.offPinMin = 0x034 := rfl
@[simp] theorem offPinMax_val : Config.offPinMax = 0x038 := rfl
@[simp] theorem offRegistersEnd_val : Config.offRegistersEnd = 0x03C := rfl
@[simp] theorem offPmem_val : Config.offPmem = 0x1000 := rfl
@[simp] theorem offPmemEnd_val : Config.offPmemEnd = 0x1FA0 := rfl
@[simp] theorem argw_val : Config.argw = 32 := rfl

/-- The bit pattern of a word lies below `2 ^ ARGW`. -/
theorem word_toNat_lt (w : Word) : w.toNat < 4294967296 := w.isLt

/-- A non-negative word is its bit pattern, read as a number. -/
theorem word_toInt_of_nonneg (w : Word) (h : 0 ≤ w.toInt) : w.toInt = w.toNat := by
  have := BitVec.toInt_eq_toNat_cond w
  have := word_toNat_lt w
  simp only [argw_val] at *
  split at * <;> omega

theorem inRange_iff (lo hi : Nat) (w : Word) :
    inRange lo hi w = true ↔ (lo : Int) ≤ w.toInt ∧ w.toInt ≤ hi := by
  simp [inRange]

theorem pinLegal_iff (w : Word) : pinLegal w = true ↔ 2 ≤ w.toInt ∧ w.toInt ≤ 27 :=
  inRange_iff 2 27 w

theorem repeatsLegal_iff (w : Word) : repeatsLegal w = true ↔ 1 ≤ w.toInt ∧ w.toInt ≤ 20 :=
  inRange_iff 1 20 w

theorem countLegal_iff (w : Word) : countLegal w = true ↔ 1 ≤ w.toInt ∧ w.toInt ≤ 1000 :=
  inRange_iff 1 1000 w

theorem lengthLegal_iff (w : Word) : lengthLegal w = true ↔ 1 ≤ w.toInt ∧ w.toInt ≤ 100000 :=
  inRange_iff 1 100000 w

theorem countEven_iff (w : Word) : countEven w = true ↔ w.toInt % 2 = 0 := by
  simp [countEven]

theorem pulseWordExists_iff (i : Nat) : pulseWordExists i = true ↔ i < 1000 :=
  decide_eq_true_iff

theorem fitsWord_iff (x : Int) : fitsWord x = true ↔ -2 ^ 31 ≤ x ∧ x ≤ 2 ^ 31 - 1 := by
  simp [fitsWord]

/-! ### Addresses and codes -/

/-- The address of an offset is `BASE` and the offset (R33). -/
theorem hostOffset_eq_some (addr off : Nat) (s : State) :
    hostOffset addr s = some off ↔ addr = s.params.base + off := by
  unfold hostOffset
  split
  · simp only [Option.some.injEq]
    omega
  · simp only [reduceCtorEq, false_iff]
    omega

@[simp] theorem hostOffset_base (off : Nat) (s : State) :
    hostOffset (s.params.base + off) s = some off := (hostOffset_eq_some _ _ _).mpr rfl

/-- No offset lies below `BASE`. -/
theorem hostOffset_below (addr : Nat) (s : State) (h : addr < s.params.base) :
    hostOffset addr s = none := if_neg (by omega)

/-- The codes taken are ones that R130 admits. -/
theorem errCodes_legal : ErrCodesLegal Config.errCodes :=
  ⟨fun e => by cases e <;> decide, fun e e' => by cases e <;> cases e' <;> decide⟩

/-- The codes taken tell the operations and the levels apart (R49, R50). -/
theorem portCodes_legal : PortCodesLegal Config.portCodes := by
  unfold PortCodesLegal
  decide

/-- A level is read back from its code. -/
theorem levelOfCode_levelCode (k : PortCodes) (h : PortCodesLegal k) (l : Level) :
    levelOfCode k (levelCode k l) = l := by
  cases l
  · exact if_neg (Ne.symm h.2)
  · exact if_pos rfl

/-! ### Traces -/

/-- One more pass, and the clock's answer after it. -/
theorem timedPasses_concat (s : State) (vs : List Nat) (v : Nat) :
    timedPasses s (vs ++ [v]) =
      timedPasses s vs ++ passEvents s (pulseCount s) ++ [.now v] := by
  induction vs with
  | nil => simp [timedPasses]
  | cons u vs ih => simp [timedPasses, ih]

/-! ### Overheads and draws -/

/-- An overhead never exceeds its bound (R100, R101). -/
theorem overhead_le (bound x : Nat) : overhead bound x ≤ bound := by
  unfold overhead
  split
  · omega
  · exact Nat.lt_succ_iff.mp (Nat.mod_lt _ (by omega))

/-- Every overhead within the bound is some draw's. -/
theorem overhead_surj (bound e : Nat) (h : e ≤ bound) : overhead bound e = e := by
  unfold overhead
  split
  · omega
  · exact Nat.mod_eq_of_lt (by omega)

theorem pinsOfDraw_get (x : Nat) (j : Fin 26) :
    (pinsOfDraw x)[j] =
      { mode := modeOfDraw (x >>> (2 * j.val)), level := levelOfDraw (x >>> (2 * j.val + 1)) } := by
  unfold pinsOfDraw
  simp

/-! ### Pins -/

theorem pinSlot_eq_some (p : Int) (j : Fin 26) :
    pinSlot p = some j ↔ p = (pinNumber j : Int) := by
  obtain ⟨j, hj⟩ := j
  simp only [pinSlot, pinNumber]
  split
  · simp only [Option.some.injEq, Fin.mk.injEq]
    omega
  · simp only [reduceCtorEq, false_iff]
    omega

/-- The pin numbers 2 to 27 are exactly the numbers of pins (R22, R39). -/
theorem pinSlot_isSome (p : Int) : (pinSlot p).isSome = true ↔ 2 ≤ p ∧ p ≤ 27 := by
  unfold pinSlot
  split <;> simp_all

@[simp] theorem pinSlot_pinNumber (j : Fin 26) : pinSlot (pinNumber j : Int) = some j :=
  (pinSlot_eq_some _ _).mpr rfl

theorem onPin_next (p : Int) (f : Fin 26 → State) (t : State) :
    onPin p f = .next t ↔ ∃ j, p = (pinNumber j : Int) ∧ t = f j := by
  unfold onPin
  constructor
  · intro h
    split at h
    · rename_i j hj
      exact ⟨j, (pinSlot_eq_some p j).mp hj, by injection h with h; exact h.symm⟩
    · cases h
  · rintro ⟨j, rfl, rfl⟩
    simp

theorem onPin_pinNumber (j : Fin 26) (f : Fin 26 → State) :
    onPin (pinNumber j : Int) f = .next (f j) := by simp [onPin]

theorem onPin_fault (p : Int) (f : Fin 26 → State) (h : ¬(2 ≤ p ∧ p ≤ 27)) :
    onPin p f = .fault .noSuchPin := by
  have : pinSlot p = none := by unfold pinSlot; simp [h]
  simp [onPin, this]

/-- `Cfg` of a pin that is an output changes no pin (R38, R114). -/
theorem cfgPin_pins_output (j : Fin 26) (s : State) (h : s.pins[j].mode = .output) :
    (cfgPin j s).pins = s.pins := by
  unfold cfgPin
  rw [if_pos h]
  simp

/-- `Cfg` makes the pin an output (R114). -/
theorem cfgPin_mode (j : Fin 26) (s : State) : (cfgPin j s).pins[j].mode = .output := by
  unfold cfgPin
  split
  · simpa using ‹_›
  · simp

/-- `Cfg` changes no other pin. -/
theorem cfgPin_other (j k : Fin 26) (s : State) (h : k ≠ j) :
    (cfgPin j s).pins[k] = s.pins[k] := by
  unfold cfgPin
  split
  · simp
  · simp only [State.spend_pins, State.log_pins, State.consume_pins, State.setPin_pins]
    exact Vector.getElem_set_ne _ _ (fun e => h (Fin.ext e.symm))

/-- `Wr` to an output pin drives it to the level (R115). -/
theorem wrPin_output (j : Fin 26) (l : Level) (s : State) (h : s.pins[j].mode = .output) :
    (wrPin j l s).pins = s.pins.set j { mode := .output, level := l } := by
  unfold wrPin
  rw [if_pos h]
  simp only [Fin.getElem_fin] at h
  simp [h]

/-- `Wr` never changes a pin's mode. -/
theorem wrPin_mode (j k : Fin 26) (l : Level) (s : State) :
    (wrPin j l s).pins[k].mode = s.pins[k].mode := by
  unfold wrPin
  split <;>
  · simp only [State.spend_pins, State.log_pins, State.consume_pins, State.setPin_pins,
      Fin.getElem_fin, Vector.getElem_set]
    split
    · simp [*]
    · rfl

/-- `Wr` changes no other pin (R115). -/
theorem wrPin_other (j k : Fin 26) (l : Level) (s : State) (h : k ≠ j) :
    (wrPin j l s).pins[k] = s.pins[k] := by
  have hne : (j : Nat) ≠ k := fun e => h (Fin.ext e.symm)
  unfold wrPin
  split <;> simp [Vector.getElem_set_ne, hne]

/-! ### Everything a primitive does -/

/-- Everything `Cfg` does (R114). -/
theorem cfgPin_shape (j : Fin 26) (s : State) :
    ∃ (l : Level) (e : Nat) (o : List Nat) (n : Nat), e ≤ s.params.ovhStep ∧
      (s.pins[j].mode = .output → l = s.pins[j].level) ∧
      cfgPin j s =
        { s with pins := s.pins.set j { mode := .output, level := l },
                 trace := s.trace ++ [.cfg (pinNumber j)], tus := s.tus + e,
                 oracle := o, drawn := n } := by
  by_cases hm : s.pins[j].mode = .output
  · refine ⟨s.pins[j].level, overhead s.params.ovhStep s.peek, s.oracle.drop 1, s.drawn + 1,
      overhead_le _ _, fun _ => rfl, ?_⟩
    have hp : s.pins.set j { mode := .output, level := s.pins[j].level } = s.pins := by
      have : ({ mode := .output, level := s.pins[j].level } : PinState) = s.pins[j] := by rw [← hm]
      rw [this]
      simp
    unfold cfgPin
    rw [if_pos hm, hp]
    simp only [State.spend, State.log, State.addTime, State.consume, State.peek, State.drawAt]
  · refine ⟨levelOfDraw s.peek, _, (s.oracle.drop 1).drop 1, s.drawn + 1 + 1,
      overhead_le _ (((s.setPin j { mode := .output, level := levelOfDraw s.peek }).consume 1).log
        (.cfg (pinNumber j))).peek, fun h => absurd h hm, ?_⟩
    unfold cfgPin
    rw [if_neg hm]
    simp only [State.spend, State.log, State.addTime, State.consume, State.setPin]

/-- Everything `Wr` does (R115). -/
theorem wrPin_shape (j : Fin 26) (l : Level) (s : State) :
    ∃ (l' : Level) (e : Nat) (o : List Nat) (n : Nat), e ≤ s.params.ovhStep ∧
      (s.pins[j].mode = .output → l' = l) ∧
      wrPin j l s =
        { s with pins := s.pins.set j { mode := s.pins[j].mode, level := l' },
                 trace := s.trace ++ [.wr (pinNumber j) l], tus := s.tus + e,
                 oracle := o, drawn := n } := by
  by_cases hm : s.pins[j].mode = .output
  · refine ⟨l, _, s.oracle.drop 1, s.drawn + 1,
      overhead_le _ ((s.setPin j { s.pins[j] with level := l }).log (.wr (pinNumber j) l)).peek,
      fun _ => rfl, ?_⟩
    unfold wrPin
    rw [if_pos hm]
    simp only [State.spend, State.log, State.addTime, State.consume, State.setPin]
  · refine ⟨levelOfDraw s.peek, _, (s.oracle.drop 1).drop 1, s.drawn + 1 + 1,
      overhead_le _ (((s.setPin j { s.pins[j] with level := levelOfDraw s.peek }).consume 1).log
        (.wr (pinNumber j) l)).peek, fun h => absurd h hm, ?_⟩
    unfold wrPin
    rw [if_neg hm]
    simp only [State.spend, State.log, State.addTime, State.consume, State.setPin]

/-- Everything `Dly` does (R116). -/
theorem delayFor_shape (d : Nat) (s : State) :
    ∃ (e : Nat) (o : List Nat) (n : Nat), e ≤ s.params.ovhDly ∧
      delayFor d s = { s with trace := s.trace ++ [.dly d], tus := s.tus + (d + e),
                              oracle := o, drawn := n } :=
  ⟨_, _, _, overhead_le _ _, rfl⟩

/-- Everything `Now` does (R117). -/
theorem readClock_shape (s : State) :
    ∃ (e : Nat) (o : List Nat) (n : Nat), e ≤ s.params.ovhStep ∧
      readClock s = { s with lastNow := clockAnswer s, trace := s.trace ++ [.now (clockAnswer s)],
                             tus := s.tus + e, oracle := o, drawn := n } := by
  refine ⟨_, (s.oracle.drop (clockDraws s)).drop 1, s.drawn + clockDraws s + 1,
    overhead_le _ (State.log { s.consume (clockDraws s) with lastNow := clockAnswer s }
      (.now (clockAnswer s))).peek, ?_⟩
  simp only [readClock, State.spend, State.log, State.addTime, State.consume]

/-- The clock's answer obeys its level's law (R98, R102). -/
theorem clockAnswer_law (s : State) :
    (s.params.level = .a → s.lastNow ≤ clockAnswer s) ∧
    (s.params.level = .b → clockAnswer s = s.tus / 1000) := by
  unfold clockAnswer
  cases s.params.level <;> simp

/-! ### Time -/

theorem cfgPin_tus (j : Fin 26) (s : State) :
    s.tus ≤ (cfgPin j s).tus ∧ (cfgPin j s).tus ≤ s.tus + s.params.ovhStep := by
  unfold cfgPin
  split <;> simp [overhead_le]

theorem wrPin_tus (j : Fin 26) (l : Level) (s : State) :
    s.tus ≤ (wrPin j l s).tus ∧ (wrPin j l s).tus ≤ s.tus + s.params.ovhStep := by
  unfold wrPin
  split <;> simp [overhead_le]

theorem readClock_tus (s : State) :
    s.tus ≤ (readClock s).tus ∧ (readClock s).tus ≤ s.tus + s.params.ovhStep := by
  unfold readClock
  simp [overhead_le]

theorem readClock_pins_peek (s : State) : (readClock s).pins = s.pins := by simp

/-- The clock's answer is not below the previous one, where that one was true (R98, R102). -/
theorem clockAnswer_ge (s : State) (h : s.params.level = .b → s.lastNow ≤ s.tus / 1000) :
    s.lastNow ≤ clockAnswer s := by
  unfold clockAnswer
  split
  · omega
  · exact h ‹_›

/-! ### Ends of commands -/

theorem endTransmission_next (n : Nat) (s t : State) (h : endTransmission n s = .next t) :
    fitsWord ((n : Int) - (s.tStart : Int)) = true ∧
    t = State.finish
      { s with tEnd := n, result := BitVec.ofInt 32 ((n : Int) - (s.tStart : Int)),
               rcount := BitVec.ofNat 32 s.r } false false := by
  unfold endTransmission at h
  split at h
  · exact ⟨‹_›, by injection h with h; exact h.symm⟩
  · cases h

theorem launchTx_next (s s' t : State) (h : launchTx s s' = .next t) :
    (s.busy = true ∧ t = s) ∨
    (s.busy = false ∧ s.initst = .ready ∧ t = s'.start .vPin) := by
  unfold launchTx at h
  split at h
  · exact .inl ⟨‹_›, by injection h with h; exact h.symm⟩
  · split at h
    · refine .inr ⟨by simpa using ‹¬s.busy = true›, ‹_›, ?_⟩
      injection h with h
      exact h.symm
    · cases h

/-- Playing a pulse, where it ends in a next state. -/
theorem playPulse_next (l : Level) (d : Nat) (s t : State) :
    playPulse l d s = .next t ↔
      ∃ j, s.pin.toInt = (pinNumber j : Int) ∧ t = pulseSuccessor (delayFor d (wrPin j l s)) :=
  onPin_next _ _ _

theorem pulseSuccessor_cases (s : State) :
    ((s.i : Int) + 1 < s.count.toInt ∧ pulseSuccessor s = { s with i := s.i + 1 }) ∨
    (¬((s.i : Int) + 1 < s.count.toInt) ∧ pulseSuccessor s = { s with phase := .eBudget }) := by
  unfold pulseSuccessor
  split
  · exact .inl ⟨‹_›, rfl⟩
  · exact .inr ⟨‹_›, rfl⟩

theorem scanOn_cases (x : Int) (s : State) :
    (x > 2000000 ∧ scanOn x s = raise .invalidTxTime { s with sum := x }) ∨
    (x ≤ 2000000 ∧ (s.i : Int) + 1 < s.count.toInt ∧
      scanOn x s = { s with sum := x, i := s.i + 1, phase := .vLen }) ∨
    (x ≤ 2000000 ∧ ¬((s.i : Int) + 1 < s.count.toInt) ∧
      scanOn x s = { s with sum := x, i := 0, r := 0, phase := .eCfg }) := by
  unfold scanOn
  by_cases h : x > 2000000
  · exact .inl ⟨h, if_pos h⟩
  · by_cases h' : (s.i : Int) + 1 < s.count.toInt
    · exact .inr (.inl ⟨by omega, h', (if_neg h).trans (if_pos h')⟩)
    · exact .inr (.inr ⟨by omega, h', (if_neg h).trans (if_neg h')⟩)

theorem afterPass_cases (n : Nat) (s : State) :
    ((n > budgetLimit s ∨ (s.r : Int) = s.repeats.toInt) ∧
      afterPass n s = { s with phase := .eDeassert }) ∨
    (n ≤ budgetLimit s ∧ (s.r : Int) ≠ s.repeats.toInt ∧
      afterPass n s = { s with i := 0, phase := .eHold }) := by
  unfold afterPass
  split
  · exact .inl ⟨.inl ‹_›, rfl⟩
  · split
    · exact .inl ⟨.inr ‹_›, rfl⟩
    · exact .inr ⟨by omega, ‹_›, rfl⟩

/-! ### The pulse at an index -/

theorem pulseWord_written (s : State) (i : Nat) (w : Word) (h : Memory.lookup s.pmem i = some w) :
    pulseWord s i = w := by simp [pulseWord, h]

/-- What a word reads as depends on `PMEM` and the reset it was last cleared by, alone. -/
theorem pulseWord_congr (s t : State) (hm : t.pmem = s.pmem) (he : t.epoch = s.epoch) (i : Nat) :
    pulseWord t i = pulseWord s i := by simp [pulseWord, hm, he]

/-- The fields of the 33-bit pattern of a pulse word (R46). -/
theorem pulsePattern_index (i : Nat) (w : Word) :
    (pulsePattern i w).extractLsb' 32 1 = BitVec.ofNat 1 (i % 2) := by
  apply BitVec.eq_of_toNat_eq
  have := word_toNat_lt w
  rw [pulsePattern, BitVec.extractLsb'_toNat, BitVec.toNat_ofNat, BitVec.toNat_ofNat,
    Nat.shiftRight_eq_div_pow]
  omega

theorem pulsePattern_high (i : Nat) (w : Word) :
    (pulsePattern i w).extractLsb' 17 15 = BitVec.ofNat 15 (w.toNat / 2 ^ 17) := by
  apply BitVec.eq_of_toNat_eq
  have := word_toNat_lt w
  rw [pulsePattern, BitVec.extractLsb'_toNat, BitVec.toNat_ofNat, BitVec.toNat_ofNat,
    Nat.shiftRight_eq_div_pow]
  omega

theorem pulsePattern_low (i : Nat) (w : Word) :
    (pulsePattern i w).extractLsb' 0 17 = BitVec.ofNat 17 w.toNat := by
  apply BitVec.eq_of_toNat_eq
  have := word_toNat_lt w
  rw [pulsePattern, BitVec.extractLsb'_toNat, BitVec.toNat_ofNat, BitVec.toNat_ofNat,
    Nat.shiftRight_eq_div_pow]
  omega

/-- A legal word is fetched as the pulse instruction of its index's parity (R46, R84). -/
theorem fetchPulse_legal (s : State) (h : lengthLegal (pulseWord s s.i) = true) :
    ∃ d : BitVec 17, d.toNat = (pulseWord s s.i).toInt.toNat ∧
      fetchPulse s = .ok (if s.i % 2 = 0 then .holdH d else .holdL d) := by
  rw [lengthLegal_iff] at h
  generalize hw : pulseWord s s.i = w at *
  have hn := word_toInt_of_nonneg w (by omega)
  refine ⟨BitVec.ofNat 17 w.toNat, ?_, ?_⟩
  · rw [BitVec.toNat_ofNat]
    omega
  · have h0 : (pulsePattern s.i w).extractLsb' 17 15 = 0 := by
      rw [pulsePattern_high, show w.toNat / 2 ^ 17 = 0 by omega]
      rfl
    unfold fetchPulse decodePulse
    rw [hw, if_pos h0, pulsePattern_low, pulsePattern_index]
    rcases Nat.mod_two_eq_zero_or_one s.i with e | e <;> simp [e]

end Sys2Proof.Machine
end

