-- ==== Sys2Proof/Laws/Step.lean ====
section
/-! SUPPORT. What a step can be, said once: the operation on the pin port, the command the host
writes, the operation of the phase, or the host's turn. -/

namespace Sys2Proof.Machine

/-- A step that fetches nothing is the host's turn. -/
theorem step_turn (s : State) (h : fetchedCode s = none) : step s = hostTurn s := by
  unfold step
  rw [h]

/-- A step that fetches a code that decodes runs the operation. -/
theorem step_fetched (s : State) (c : Code) (i : Instr) (h : fetchedCode s = some c)
    (hd : decode s.params.portCodes c = .ok i) : step s = aroundExec c (exec i (afterFetch s)) := by
  unfold step
  rw [h]
  simp only [hd]

/-- A step that fetches a code that is no operation is refused. -/
theorem step_undecodable (s : State) (c : Code) (e : DecodeError) (h : fetchedCode s = some c)
    (hd : decode s.params.portCodes c = .error e) : step s = .refused (.undecodable e) := by
  unfold step
  rw [h]
  simp only [hd]

theorem fetchedCode_port (s : State) (w : PortWord) (h : s.port = some w) :
    fetchedCode s = some (.primitive w) := by
  unfold fetchedCode
  rw [h]

theorem fetchedCode_command (s : State) (v : Word) (rest : List HostMove) (hp : s.port = none)
    (hh : s.host = .write (s.params.base + Config.offCtrl) 4 v :: rest) (hb : s.busy = false) :
    fetchedCode s = some (.command v) := by
  unfold fetchedCode
  rw [hp]
  simp only [hh, hb, hostOffset_base, and_self, if_true]

theorem fetchedCode_quiet (s : State) (hp : s.port = none)
    (hh : s.host = [] ∨ ∃ us rest, s.host = .pass us :: rest) : fetchedCode s = phaseFetch s := by
  unfold fetchedCode
  rw [hp]
  rcases hh with hh | ⟨us, rest, hh⟩ <;> simp only [hh]

theorem fetchedCode_read (s : State) (addr bytes : Nat) (rest : List HostMove)
    (hp : s.port = none) (hh : s.host = .read addr bytes :: rest) : fetchedCode s = none := by
  unfold fetchedCode
  rw [hp]
  simp only [hh]

theorem fetchedCode_write (s : State) (addr bytes : Nat) (v : Word) (rest : List HostMove)
    (hp : s.port = none) (hh : s.host = .write addr bytes v :: rest)
    (h : ¬(hostOffset addr s = some Config.offCtrl ∧ bytes = 4 ∧ s.busy = false)) : fetchedCode s = none := by
  unfold fetchedCode
  rw [hp]
  simp only [hh]
  exact if_neg h

theorem fetchedCode_txDefault (s : State) (rest : List HostMove) (hp : s.port = none)
    (hh : s.host = .txDefault :: rest) : fetchedCode s = none := by
  unfold fetchedCode
  rw [hp]
  simp only [hh]

theorem fetchedCode_reset (s : State) (rest : List HostMove) (hp : s.port = none)
    (hh : s.host = .reset :: rest) : fetchedCode s = none := by
  unfold fetchedCode
  rw [hp]
  simp only [hh]

theorem afterFetch_port (s : State) (w : PortWord) (h : s.port = some w) :
    afterFetch s = { s with port := none } := by
  unfold afterFetch
  rw [h]

theorem afterFetch_quiet (s : State) (h : s.port = none) :
    afterFetch s = { s with host := s.host.tail } := by
  unfold afterFetch
  rw [h]

/-- The host's turn at a read, a write, the pseudo-instruction and the reset line. -/
theorem hostTurn_read (s : State) (addr bytes : Nat) (rest : List HostMove)
    (hh : s.host = .read addr bytes :: rest) :
    hostTurn s = hostRead addr bytes { s with host := rest } := by
  unfold hostTurn
  rw [hh]

theorem hostTurn_write (s : State) (addr bytes : Nat) (v : Word) (rest : List HostMove)
    (hh : s.host = .write addr bytes v :: rest) :
    hostTurn s = hostWrite addr bytes v { s with host := rest } := by
  unfold hostTurn
  rw [hh]

theorem hostTurn_txDefault (s : State) (rest : List HostMove) (hh : s.host = .txDefault :: rest) :
    hostTurn s = exec .txDefault { s with host := rest } := by
  unfold hostTurn
  rw [hh]

theorem hostTurn_reset (s : State) (rest : List HostMove) (hh : s.host = .reset :: rest) :
    hostTurn s = hostReset { s with host := rest } := by
  unfold hostTurn
  rw [hh]

/-- The operation of a phase, decoded from its code (R53). -/
theorem decode_phaseCode (k : PortCodes) (p : Phase) (i : Instr) (h : phaseOperation p = some i) :
    decode k (.phase (phaseCode p)) = .ok i := by
  cases p <;> cases h <;> rfl

/-- Everything a step that ends in a next state can be. -/
theorem step_next_cases (s t : State) (h : step s = .next t) :
    (∃ w i, s.port = some w ∧ decodePrimitive s.params.portCodes w = .ok i ∧
      exec i { s with port := none } = .next t) ∨
    (∃ v rest i, s.port = none ∧ s.host = .write (s.params.base + Config.offCtrl) 4 v :: rest ∧ s.busy = false ∧
      decodeCommand v = .ok i ∧ exec i { s with host := rest } = .next t) ∨
    (∃ i u, s.port = none ∧ (s.host = [] ∨ ∃ us rest, s.host = .pass us :: rest) ∧
      phaseOperation s.phase = some i ∧ exec i { s with host := s.host.tail } = .next u ∧
      t = u.spend) ∨
    (s.port = none ∧ hostTurn s = .next t ∧
      ((s.host = [] ∧ s.phase = .idle) ∨ (∃ us rest, s.host = .pass us :: rest ∧ s.phase = .idle) ∨
        (∃ addr bytes rest, s.host = .read addr bytes :: rest) ∨
        (∃ addr bytes v rest, s.host = .write addr bytes v :: rest) ∨
        (∃ rest, s.host = .txDefault :: rest) ∨ (∃ rest, s.host = .reset :: rest))) := by
  cases hp : s.port with
  | some w =>
    left
    cases hd : decodePrimitive s.params.portCodes w with
    | ok i =>
      rw [step_fetched s _ i (fetchedCode_port s w hp) hd, afterFetch_port s w hp] at h
      exact ⟨w, i, rfl, hd, h⟩
    | error e =>
      rw [step_undecodable s _ e (fetchedCode_port s w hp) hd] at h
      cases h
  | none =>
    right
    have quiet (hh : s.host = [] ∨ ∃ us rest, s.host = .pass us :: rest) (hq : s.phase ≠ .idle) :
        ∃ i u, phaseOperation s.phase = some i ∧ exec i { s with host := s.host.tail } = .next u ∧
          t = u.spend := by
      have hf : fetchedCode s = some (.phase (phaseCode s.phase)) := by
        rw [fetchedCode_quiet s hp hh, phaseFetch, if_neg hq]
      obtain ⟨i, hi⟩ : ∃ i, phaseOperation s.phase = some i := by
        cases hph : s.phase <;> first | exact absurd hph hq | exact ⟨_, rfl⟩
      rw [step_fetched s _ i hf (decode_phaseCode _ _ _ hi), afterFetch_quiet s hp] at h
      refine ⟨i, ?_⟩
      cases hx : exec i { s with host := s.host.tail } with
      | next u =>
        rw [hx] at h
        cases h
        exact ⟨u, hi, rfl, rfl⟩
      | fault f => rw [hx] at h; cases h
      | refused q => rw [hx] at h; cases h
    cases hh : s.host with
    | nil =>
      by_cases hq : s.phase = .idle
      · rw [step_turn s (by rw [fetchedCode_quiet s hp (.inl hh), phaseFetch, if_pos hq])] at h
        exact .inr (.inr ⟨rfl, h, .inl ⟨rfl, hq⟩⟩)
      · obtain ⟨i, u, h1, h2, h3⟩ := quiet (.inl hh) hq
        rw [hh, hp] at h2
        exact .inr (.inl ⟨i, u, rfl, .inl rfl, h1, h2, h3⟩)
    | cons m rest =>
      cases m with
      | pass us =>
        by_cases hq : s.phase = .idle
        · rw [step_turn s (by
            rw [fetchedCode_quiet s hp (.inr ⟨us, rest, hh⟩), phaseFetch, if_pos hq])] at h
          exact .inr (.inr ⟨rfl, h, .inr (.inl ⟨us, rest, rfl, hq⟩)⟩)
        · obtain ⟨i, u, h1, h2, h3⟩ := quiet (.inr ⟨us, rest, hh⟩) hq
          rw [hh, hp] at h2
          exact .inr (.inl ⟨i, u, rfl, .inr ⟨us, rest, rfl⟩, h1, h2, h3⟩)
      | read addr bytes =>
        rw [step_turn s (fetchedCode_read s addr bytes rest hp hh)] at h
        exact .inr (.inr ⟨rfl, h, .inr (.inr (.inl ⟨addr, bytes, rest, rfl⟩))⟩)
      | write addr bytes v =>
        by_cases hc : hostOffset addr s = some Config.offCtrl ∧ bytes = 4 ∧ s.busy = false
        · obtain ⟨ha, rfl, hb⟩ := hc
          rw [hostOffset_eq_some] at ha
          subst ha
          have hf := fetchedCode_command s v rest hp hh hb
          cases hd : decodeCommand v with
          | ok i =>
            rw [step_fetched s _ i hf hd, afterFetch_quiet s hp, hh, hp] at h
            exact .inl ⟨v, rest, i, rfl, rfl, hb, hd, h⟩
          | error e =>
            rw [step_undecodable s _ e hf hd] at h
            cases h
        · rw [step_turn s (fetchedCode_write s addr bytes v rest hp hh hc)] at h
          exact .inr (.inr ⟨rfl, h, .inr (.inr (.inr (.inl ⟨addr, bytes, v, rest, rfl⟩)))⟩)
      | txDefault =>
        rw [step_turn s (fetchedCode_txDefault s rest hp hh)] at h
        exact .inr (.inr ⟨rfl, h, .inr (.inr (.inr (.inr (.inl ⟨rest, rfl⟩))))⟩)
      | reset =>
        rw [step_turn s (fetchedCode_reset s rest hp hh)] at h
        exact .inr (.inr ⟨rfl, h, .inr (.inr (.inr (.inr (.inr ⟨rest, rfl⟩))))⟩)

end Sys2Proof.Machine
end

