-- ==== Sys2Proof/Laws/Exec.lean ====
section
/-! SUPPORT. What each meaning with more than one way to end can have done, where it ended in a
next state; and which of the five kinds of effect on the trace and the pins a meaning has. -/

namespace Sys2Proof.Machine

variable (s t : State)

theorem next_inj {a b : State} (h : (Host.Outcome.next a : Answer) = .next b) : b = a := by
  injection h with h
  exact h.symm

/-! ### Commands -/

theorem initStep_cases :
    (s.initst = .uninit ∧ initStep s = endInit (initStateOf (setupAnswer s)) (runSetup s)) ∨
    (s.initst = .ready ∧ initStep s = endInit .ready s) ∨
    (s.initst = .fatal ∧ initStep s = endInit .fatal s) := by
  unfold initStep
  cases h : s.initst <;> simp

theorem execInit_next (h : execInit s = .next t) :
    (s.busy = true ∧ s.phase = .iSetup ∧ t = initStep s) ∨
    (s.busy = true ∧ s.phase ≠ .iSetup ∧ t = s) ∨
    (s.busy = false ∧ t = s.start .iSetup) := by
  unfold execInit at h
  by_cases hb : s.busy = true
  · rw [if_pos hb] at h
    by_cases hp : s.phase = .iSetup
    · rw [if_pos hp] at h
      exact .inl ⟨hb, hp, next_inj h⟩
    · rw [if_neg hp] at h
      exact .inr (.inl ⟨hb, hp, next_inj h⟩)
  · rw [if_neg hb] at h
    exact .inr (.inr ⟨by simpa using hb, next_inj h⟩)

/-! ### The checker -/

theorem execChkPin_next (h : execChkPin s = .next t) :
    (pinLegal s.pin = true ∧ t = { s with phase := .vRep }) ∨
    (pinLegal s.pin = false ∧ t = raise .invalidGpio s) := by
  unfold execChkPin at h
  by_cases hc : pinLegal s.pin = true
  · exact .inl ⟨hc, next_inj (by rw [if_pos hc] at h; exact h)⟩
  · exact .inr ⟨by simpa using hc, next_inj (by rw [if_neg hc] at h; exact h)⟩

theorem execChkRep_next (h : execChkRep s = .next t) :
    (repeatsLegal s.repeats = true ∧ t = { s with phase := .vCnt }) ∨
    (repeatsLegal s.repeats = false ∧ t = raise .invalidRepeats s) := by
  unfold execChkRep at h
  by_cases hc : repeatsLegal s.repeats = true
  · exact .inl ⟨hc, next_inj (by rw [if_pos hc] at h; exact h)⟩
  · exact .inr ⟨by simpa using hc, next_inj (by rw [if_neg hc] at h; exact h)⟩

theorem execChkCnt_next (h : execChkCnt s = .next t) :
    (countLegal s.count = true ∧ t = { s with phase := .vPar }) ∨
    (countLegal s.count = false ∧ t = raise .invalidPulseCount s) := by
  unfold execChkCnt at h
  by_cases hc : countLegal s.count = true
  · exact .inl ⟨hc, next_inj (by rw [if_pos hc] at h; exact h)⟩
  · exact .inr ⟨by simpa using hc, next_inj (by rw [if_neg hc] at h; exact h)⟩

theorem execChkPar_next (h : execChkPar s = .next t) :
    (countEven s.count = true ∧ t = { s with sum := 0, i := 0, phase := .vLen }) ∨
    (countEven s.count = false ∧ t = raise .pulseTrainOdd s) := by
  unfold execChkPar at h
  by_cases hc : countEven s.count = true
  · exact .inl ⟨hc, next_inj (by rw [if_pos hc] at h; exact h)⟩
  · exact .inr ⟨by simpa using hc, next_inj (by rw [if_neg hc] at h; exact h)⟩

theorem execChkLen_next (h : execChkLen s = .next t) :
    s.i < 1000 ∧
    ((lengthLegal (pulseWord s s.i) = true ∧ t = { s with phase := .vSum }) ∨
     (lengthLegal (pulseWord s s.i) = false ∧ t = raise .invalidPulseLength s)) := by
  unfold execChkLen at h
  by_cases hx : pulseWordExists s.i = true
  · rw [if_pos hx] at h
    refine ⟨(pulseWordExists_iff _).mp hx, ?_⟩
    by_cases hc : lengthLegal (pulseWord s s.i) = true
    · exact .inl ⟨hc, next_inj (by rw [if_pos hc] at h; exact h)⟩
    · exact .inr ⟨by simpa using hc, next_inj (by rw [if_neg hc] at h; exact h)⟩
  · rw [if_neg hx] at h
    cases h

theorem execChkSum_next (h : execChkSum s = .next t) :
    s.i < 1000 ∧ t = scanOn (s.sum + (pulseWord s s.i).toInt) s := by
  unfold execChkSum at h
  by_cases hx : pulseWordExists s.i = true
  · rw [if_pos hx] at h
    exact ⟨(pulseWordExists_iff _).mp hx, next_inj h⟩
  · rw [if_neg hx] at h
    cases h

/-! ### The scheduler -/

theorem execEngCfg_next (h : execEngCfg s = .next t) :
    ∃ j, s.pin.toInt = (pinNumber j : Int) ∧ t = { cfgPin j s with phase := .eStamp0 } :=
  (onPin_next ..).mp h

theorem execEngDeassert_next (h : execEngDeassert s = .next t) :
    ∃ j, s.pin.toInt = (pinNumber j : Int) ∧ t = { wrPin j .low s with phase := .eStamp1 } :=
  (onPin_next ..).mp h

/-- `ENG.HOLD` plays the fetched instruction's level and duration. -/
theorem execEngHold_next (h : execEngHold s = .next t) :
    s.i < 1000 ∧ ∃ (l : Level) (d : BitVec 17) (j : Fin 26),
      fetchPulse s = .ok (match l with | .high => .holdH d | .low => .holdL d) ∧
      s.pin.toInt = (pinNumber j : Int) ∧
      t = pulseSuccessor (delayFor d.toNat (wrPin j l s)) := by
  unfold execEngHold at h
  by_cases hx : pulseWordExists s.i = true
  · rw [if_pos hx] at h
    refine ⟨(pulseWordExists_iff _).mp hx, ?_⟩
    split at h
    · rename_i d hf
      obtain ⟨j, hj, ht⟩ := (playPulse_next ..).mp h
      exact ⟨.high, d, j, hf, hj, ht⟩
    · rename_i d hf
      obtain ⟨j, hj, ht⟩ := (playPulse_next ..).mp h
      exact ⟨.low, d, j, hf, hj, ht⟩
    · cases h
  · rw [if_neg hx] at h
    cases h

theorem execEngBudget_next (h : execEngBudget s = .next t) :
    t = afterPass (clockAnswer s) (readClock { s with r := s.r + 1 }) := next_inj h

theorem execEngStamp1_next (h : execEngStamp1 s = .next t) :
    fitsWord ((clockAnswer s : Int) - (s.tStart : Int)) = true ∧
    t = State.finish
      { readClock s with
        tEnd := clockAnswer s, result := BitVec.ofInt 32 ((clockAnswer s : Int) - (s.tStart : Int)),
        rcount := BitVec.ofNat 32 s.r } false false := by
  have := endTransmission_next _ _ _ h
  rwa [readClock_tStart, readClock_r] at this

end Sys2Proof.Machine
end

