-- ==== Sys2Proof/Laws/PerInstr.lean ====
section
/-! SUPPORT. The fixed bits of each row of spec/opcode_table.json (30_encoding.md R46, R48, R49,
R53): the encoder puts every one of them in the code, whatever the operands. -/

namespace Sys2Proof.Laws.TableRow

/-- A code as a number, bit 0 the least significant. -/
def codeBits : Code → Nat
  | .command w => w.toNat
  | .primitive w => w.toNat
  | .pulse x => x.toNat
  | .phase c => c.toNat

/-- The place an operation's code stands in (30_encoding.md section 1). -/
inductive Place where
  | command | primitive | pulse | phase
deriving DecidableEq, Repr

/-- The place of a code. -/
def placeOf : Code → Place
  | .command _ => .command
  | .primitive _ => .primitive
  | .pulse _ => .pulse
  | .phase _ => .phase

/-- Bits `lo` to `lo + len - 1` of a row, with the value the row fixes them at. -/
structure FixedBits where
  lo : Nat
  len : Nat
  value : Nat

/-- The place and the fixed bits of an instruction's row. -/
def row : Instr → Place × List FixedBits
  | .tx => (.command, [⟨0, 32, 1⟩])
  | .init => (.command, [⟨0, 32, 2⟩])
  | .txDefault => (.command, [⟨0, 32, 1⟩])
  | .holdH _ => (.pulse, [⟨17, 15, 0⟩, ⟨32, 1, 0⟩])
  | .holdL _ => (.pulse, [⟨17, 15, 0⟩, ⟨32, 1, 1⟩])
  | .setup => (.primitive, [⟨0, 32, 0⟩])
  | .cfg _ => (.primitive, [⟨0, 24, 0⟩, ⟨29, 3, 1⟩])
  | .wr _ _ => (.primitive, [⟨1, 23, 0⟩, ⟨29, 3, 2⟩])
  | .dly _ => (.primitive, [⟨17, 15, 12288⟩])
  | .now => (.primitive, [⟨0, 32, 2147483648⟩])
  | .chkPin => (.phase, [⟨0, 4, 2⟩])
  | .chkRep => (.phase, [⟨0, 4, 3⟩])
  | .chkCnt => (.phase, [⟨0, 4, 4⟩])
  | .chkPar => (.phase, [⟨0, 4, 5⟩])
  | .chkLen => (.phase, [⟨0, 4, 6⟩])
  | .chkSum => (.phase, [⟨0, 4, 7⟩])
  | .engCfg => (.phase, [⟨0, 4, 8⟩])
  | .engStamp0 => (.phase, [⟨0, 4, 9⟩])
  | .engHold => (.phase, [⟨0, 4, 10⟩])
  | .engBudget => (.phase, [⟨0, 4, 11⟩])
  | .engDeassert => (.phase, [⟨0, 4, 12⟩])
  | .engStamp1 => (.phase, [⟨0, 4, 13⟩])

/-- The instruction's code stands in its row's place with its row's fixed bits. -/
def Statement (i : Instr) : Prop :=
  placeOf (encode Config.portCodes i) = (row i).1 ∧
  ∀ f ∈ (row i).2, codeBits (encode Config.portCodes i) / 2 ^ f.lo % 2 ^ f.len = f.value

theorem tx : Statement .tx := ⟨rfl, by simp [row, encode, codeBits]⟩
theorem init : Statement .init := ⟨rfl, by simp [row, encode, codeBits]⟩
theorem txDefault : Statement .txDefault := ⟨rfl, by simp [row, encode, codeBits]⟩

theorem holdH (d : BitVec 17) : Statement (.holdH d) := by
  have := d.isLt
  refine ⟨rfl, ?_⟩
  simp only [row, encode, codeBits, List.forall_mem_cons, BitVec.toNat_ofNat]
  exact ⟨by omega, by omega, by simp⟩

theorem holdL (d : BitVec 17) : Statement (.holdL d) := by
  have := d.isLt
  refine ⟨rfl, ?_⟩
  simp only [row, encode, codeBits, List.forall_mem_cons, BitVec.toNat_ofNat]
  exact ⟨by omega, by omega, by simp⟩

theorem setup : Statement .setup := by unfold Statement; decide

theorem cfg (p : BitVec 5) : Statement (.cfg p) := by
  have : Config.portCodes.cfg.toNat = 1 := rfl
  have := p.isLt
  refine ⟨rfl, ?_⟩
  simp only [row, encode, codeBits, List.forall_mem_cons, BitVec.toNat_ofNat]
  exact ⟨by omega, by omega, by simp⟩

theorem wr (p : BitVec 5) (l : Level) : Statement (.wr p l) := by
  have := p.isLt
  have : Config.portCodes.wr.toNat = 2 := rfl
  have := (levelCode Config.portCodes l).isLt
  refine ⟨rfl, ?_⟩
  simp only [row, encode, codeBits, List.forall_mem_cons, BitVec.toNat_ofNat]
  exact ⟨by omega, by omega, by simp⟩

theorem dly (d : BitVec 17) : Statement (.dly d) := by
  have : Config.portCodes.dly.toNat = 3 := rfl
  have := d.isLt
  refine ⟨rfl, ?_⟩
  simp only [row, encode, codeBits, List.forall_mem_cons, BitVec.toNat_ofNat]
  exact ⟨by omega, by simp⟩

theorem now : Statement .now := by unfold Statement; decide
theorem chkPin : Statement .chkPin := ⟨rfl, by simp [row, encode, codeBits]⟩
theorem chkRep : Statement .chkRep := ⟨rfl, by simp [row, encode, codeBits]⟩
theorem chkCnt : Statement .chkCnt := ⟨rfl, by simp [row, encode, codeBits]⟩
theorem chkPar : Statement .chkPar := ⟨rfl, by simp [row, encode, codeBits]⟩
theorem chkLen : Statement .chkLen := ⟨rfl, by simp [row, encode, codeBits]⟩
theorem chkSum : Statement .chkSum := ⟨rfl, by simp [row, encode, codeBits]⟩
theorem engCfg : Statement .engCfg := ⟨rfl, by simp [row, encode, codeBits]⟩
theorem engStamp0 : Statement .engStamp0 := ⟨rfl, by simp [row, encode, codeBits]⟩
theorem engHold : Statement .engHold := ⟨rfl, by simp [row, encode, codeBits]⟩
theorem engBudget : Statement .engBudget := ⟨rfl, by simp [row, encode, codeBits]⟩
theorem engDeassert : Statement .engDeassert := ⟨rfl, by simp [row, encode, codeBits]⟩
theorem engStamp1 : Statement .engStamp1 := ⟨rfl, by simp [row, encode, codeBits]⟩

end Sys2Proof.Laws.TableRow
end

