-- ==== Sys2Proof/Tests/Slice0.lean ====
section
/-! SUPPORT. Tests against the words and vectors of 95_test_vectors.md, one step each, and for
each obligation with hypotheses a concrete state and operands that meet them. -/

namespace Sys2Proof.Tests

open Sys2Proof Sys2Proof.Machine

/-! ### Well-formedness: 30_encoding.md R46, R49 -/

theorem test_wf_limits :
    [Instr.cfg 2, .cfg 27, .wr 2 .high, .wr 27 .low, .holdH 1, .holdL 100000, .dly 1,
      .dly 100000].all WellFormed = true := by decide

theorem test_wf_cfg_ill : WellFormed (.cfg 1) = false ∧ WellFormed (.cfg 28) = false := by decide
theorem test_wf_wr_ill : WellFormed (.wr 0 .low) = false ∧ WellFormed (.wr 31 .high) = false := by
  decide
theorem test_wf_holdH_ill : WellFormed (.holdH 0) = false ∧ WellFormed (.holdH 100001) = false := by
  decide
theorem test_wf_holdL_ill : WellFormed (.holdL 0) = false ∧ WellFormed (.holdL 100001) = false := by
  decide
theorem test_wf_dly_ill : WellFormed (.dly 0) = false ∧ WellFormed (.dly 131071) = false := by
  decide

/-! ### Encodings: V72 to V80, R46, R48, R49, R52, R53 -/

/-- A word decodes to an instruction. -/
def reads (c : Code) (i : Instr) : Bool := decide ((decode Config.portCodes c).toOption = some i)

-- V72, V73: op 001, pin 10001, 00010, 11011, arg 0.
theorem test_decode_cfg :
    reads (.primitive 0x31000000) (.cfg 17) = true ∧ reads (.primitive 0x22000000) (.cfg 2) = true ∧
    reads (.primitive 0x3B000000) (.cfg 27) = true := by decide

-- V74, V75: op 010, pin, arg[0] the level.
theorem test_decode_wr :
    reads (.primitive 0x51000001) (.wr 17 .high) = true ∧
    reads (.primitive 0x51000000) (.wr 17 .low) = true ∧
    reads (.primitive 0x5B000001) (.wr 27 .high) = true ∧
    reads (.primitive 0x42000000) (.wr 2 .low) = true ∧
    reads (.primitive 0x56000001) (.wr 22 .high) = true := by decide

-- V76: op 011, pin 0, arg[16:0] the duration.
theorem test_decode_dly :
    reads (.primitive 0x60000001) (.dly 1) = true ∧
    reads (.primitive 0x6000012C) (.dly 300) = true ∧
    reads (.primitive 0x600186A0) (.dly 100000) = true := by decide

-- V77.
theorem test_decode_now : reads (.primitive 0x80000000) .now = true := by decide
theorem test_decode_setup : reads (.primitive 0x00000000) .setup = true := by decide

-- V78, V79: the same word at an even and at an odd index.
theorem test_decode_pulse :
    reads (.pulse 0x0000001F4) (.holdH 500) = true ∧
    reads (.pulse 0x1000001F4) (.holdL 500) = true ∧
    reads (.pulse 0x0000186A0) (.holdH 100000) = true := by decide

-- R48: bit 0 START, bit 1 INIT.
theorem test_decode_command :
    reads (.command 0x00000001) .tx = true ∧ reads (.command 0x00000002) .init = true := by decide

-- R53: phase codes 2 to 13, in the order of R12.
theorem test_decode_phase :
    reads (.phase 2) .chkPin = true ∧ reads (.phase 3) .chkRep = true ∧
    reads (.phase 4) .chkCnt = true ∧ reads (.phase 5) .chkPar = true ∧
    reads (.phase 6) .chkLen = true ∧ reads (.phase 7) .chkSum = true ∧
    reads (.phase 8) .engCfg = true ∧ reads (.phase 9) .engStamp0 = true ∧
    reads (.phase 10) .engHold = true ∧ reads (.phase 11) .engBudget = true ∧
    reads (.phase 12) .engDeassert = true ∧ reads (.phase 13) .engStamp1 = true := by decide

/-- Codes other than those taken: the ops counted from 7 down, HIGH coded 0. -/
def otherCodes : PortCodes :=
  { setup := 7, cfg := 6, wr := 5, dly := 4, now := 3, high := 0, low := 1 }

-- R5: OPCODE and LEVELCODE are the machine's; a word means what its codes say.
theorem test_decode_other_codes :
    (decode otherCodes (.primitive 0xB1000000)).toOption = some (.wr 17 .high) ∧
    (decode otherCodes (.primitive 0x31000000)).toOption = none := by decide

-- R49, R52: op 5 to 7, and a field the row gives as 0 set.
theorem test_decode_reserved :
    (decode Config.portCodes (.primitive 0xA0000000)).toOption = none ∧
    (decode Config.portCodes (.primitive 0xE0000000)).toOption = none ∧
    (decode Config.portCodes (.primitive 0x31000001)).toOption = none ∧
    (decode Config.portCodes (.primitive 0x51000002)).toOption = none ∧
    (decode Config.portCodes (.primitive 0x60020000)).toOption = none ∧
    (decode Config.portCodes (.command 0)).toOption = none ∧
    (decode Config.portCodes (.command 3)).toOption = none ∧
    (decode Config.portCodes (.phase 0)).toOption = none ∧
    (decode Config.portCodes (.phase 14)).toOption = none ∧
    (decode Config.portCodes (.pulse 0x000020000)).toOption = none := by decide

-- The table's `TX.default` row has the word of `TX` (R55).
theorem test_table_words :
    decodeTableWord 32 1 = some .tx ∧ decodeTableWord 32 2 = some .init ∧
    decodeTableWord 32 0 = some .setup ∧ decodeTableWord 40 0x1000001F4 = some (.holdL 500) ∧
    decodeTableWord 8 13 = some .engStamp1 ∧ decodeTableWord 8 14 = none := by decide

/-! ### One step of each instruction -/

/-- The ideal configuration at level B (92_eei_decisions.md D8), at address 0, with the codes
taken. -/
def ideal : Params :=
  { level := .b, ovhStep := 0, ovhDly := 0, base := 0, errCodes := Config.errCodes,
    portCodes := Config.portCodes }

/-- P1's request, ideal configuration, level B, `T0` = 0: `tx(17, [500, 500], 1)`. -/
def ready : State :=
  { State.reset with
    pin := 17, repeats := 1, count := 2, pmem := [(0, 500), (1, 500)], initst := .ready,
    tus := 0, params := ideal, oracle := [0, 0, 0, 0] }

/-- `ready` in a phase of a `TX` in flight. -/
def inPhase (p : Phase) : State := { ready with busy := true, phase := p }

/-- `inPhase` with pin 17 (index 15) an output at a level. -/
def driving (p : Phase) (l : Level) : State :=
  (inPhase p).setPin 15 { mode := .output, level := l }

/-- What a projection of the next state is, where there is one. -/
def after {α : Type} (a : Answer) (f : State → α) : Option α :=
  match a with
  | .next t => some (f t)
  | .fault _ => none
  | .refused _ => none

-- STATUS while running 0x11.
theorem test_tx_starts : after (exec .tx ready) statusWord = some 0x11 := by decide
-- V64.
theorem test_tx_refused_uninit :
    exec .tx { ready with initst := .uninit } = .refused .txNotReady := rfl
-- V70.
theorem test_txDefault_repeats :
    after (exec .txDefault { ready with repeats := 9 }) State.repeats = some 4 := by decide
-- V60, V62: STATUS 0x12 and 0x26.
theorem test_init_ok :
    after (exec .init { inPhase .iSetup with initst := .uninit, oracle := [0, 0, 0] }) statusWord
      = some 0x12 := by decide
theorem test_init_error :
    after (exec .init { inPhase .iSetup with initst := .uninit, oracle := [1, 0, 0] }) statusWord
      = some 0x26 := by decide
-- P1, trace events 3 and 4.
theorem test_holdH_trace :
    after (exec (.holdH 500) (driving .eHold .low)) State.trace
      = some [.wr 17 .high, .dly 500] := by decide
theorem test_holdH_time :
    after (exec (.holdH 500) (driving .eHold .low)) (fun t => (t.tus, t.i, t.phase))
      = some (500, 1, .eHold) := by decide
-- P1, trace events 5 and 6: the last pulse goes on to the budget check.
theorem test_holdL_last :
    after (exec (.holdL 500) { driving .eHold .high with i := 1 })
      (fun t => (t.trace, t.phase)) = some ([.wr 17 .low, .dly 500], .eBudget) := by decide
theorem test_holdL_level :
    after (exec (.holdL 500) { driving .eHold .high with i := 1 }) requestedPin
      = some (some { mode := .output, level := .low }) := by decide
-- R118.
theorem test_setup_trace :
    after (exec .setup { ready with oracle := [1, 0, 7] }) (fun t => (t.trace, t.initst, t.tus))
      = some ([.setup .error], .ready, 7) := by decide
-- P6's pin (OTHER) configured; R114: pin 27 is the last.
theorem test_cfg_output :
    after (exec (.cfg 27) ready) (fun t => t.pins[25].mode) = some .output := by decide
theorem test_cfg_no_pin : exec (.cfg 28) ready = .fault .noSuchPin := rfl
theorem test_wr_drives :
    after (exec (.wr 17 .high) (driving .idle .low)) (fun t => t.pins[15].level)
      = some .high := by decide
theorem test_dly_time : after (exec (.dly 100000) ready) State.tus = some 100000 := by decide
-- R117: TUS = 1000999 answers 1000.
theorem test_now_floor :
    after (exec .now { ready with tus := 1000999 }) State.trace = some [.now 1000] := by decide
-- V1 to V5.
theorem test_chkPin_limits :
    [1, 2, 27, 28, -1].map
      (fun p => after (exec .chkPin { inPhase .vPin with pin := p }) State.result)
      = [some (-1), some 0, some 0, some (-1), some (-1)] := by decide
theorem test_chkPin_status :
    after (exec .chkPin { inPhase .vPin with pin := 28 }) statusWord = some 0x1E := by decide
-- V7 to V11.
theorem test_chkRep_limits :
    [0, 1, 20, 21, -3].map
      (fun r => after (exec .chkRep { inPhase .vRep with repeats := r }) State.result)
      = [some (-2), some 0, some 0, some (-2), some (-2)] := by decide
-- V12 to V17.
theorem test_chkCnt_limits :
    [0, 1, 1000, 1001, -1].map
      (fun c => after (exec .chkCnt { inPhase .vCnt with count := c }) State.result)
      = [some (-3), some 0, some 0, some (-3), some (-3)] := by decide
theorem test_chkCnt_status :
    after (exec .chkCnt { inPhase .vCnt with count := 0 }) statusWord = some 0x16 := by decide
-- V13, V18.
theorem test_chkPar_odd :
    [1, 2, 999, 1000].map
      (fun c => after (exec .chkPar { inPhase .vPar with count := c }) State.phase)
      = [some .idle, some .vLen, some .idle, some .vLen] := by decide
-- V21 to V26.
theorem test_chkLen_limits :
    [0, 1, 100000, 100001, -5].map
      (fun d => after (exec .chkLen { inPhase .vLen with pmem := [(0, d)] }) State.result)
      = [some (-5), some 0, some 0, some (-5), some (-5)] := by decide
-- V29, V30: the sum limit is strict.
theorem test_chkSum_limit :
    [1999999, 2000000].map
      (fun x => after (exec .chkSum { inPhase .vSum with sum := x, pmem := [(0, 1)] }) State.result)
      = [some 0, some (-6)] := by decide
theorem test_chkSum_last :
    after (exec .chkSum { inPhase .vSum with sum := 500, i := 1 })
      (fun t => (t.sum, t.i, t.phase)) = some (1000, 0, .eCfg) := by decide
-- P1, trace event 1.
theorem test_engCfg_trace :
    after (exec .engCfg (inPhase .eCfg)) (fun t => (t.trace, t.phase))
      = some ([.cfg 17], .eStamp0) := by decide
-- R78's example.
theorem test_engStamp0_stamp :
    after (exec .engStamp0 { inPhase .eStamp0 with tus := 1000000, r := 3 })
      (fun t => (t.tStart, t.r, t.trace)) = some (1000, 0, [.now 1000]) := by decide
theorem test_engHold_even :
    after (exec .engHold (driving .eHold .low)) State.trace
      = some [.wr 17 .high, .dly 500] := by decide
theorem test_engHold_odd :
    after (exec .engHold { driving .eHold .high with i := 1 }) State.trace
      = some [.wr 17 .low, .dly 500] := by decide
-- V48: T_START + 2000 continues, T_START + 2001 stops.
theorem test_engBudget_strict :
    [3000000, 3001000].map (fun us => after
        (exec .engBudget { inPhase .eBudget with repeats := 4, tStart := 1000, tus := us })
        State.phase)
      = [some .eHold, some .eDeassert] := by decide
theorem test_engBudget_repeats :
    after (exec .engBudget { inPhase .eBudget with repeats := 4, r := 3 })
      (fun t => (t.r, t.phase)) = some (4, .eDeassert) := by decide
theorem test_engDeassert_low :
    after (exec .engDeassert (driving .eDeassert .low)) (fun t => (t.trace, t.phase))
      = some ([.wr 17 .low], .eStamp1) := by decide
-- R83's example, P1's end: STATUS 0x12.
theorem test_engStamp1_result :
    after (exec .engStamp1 { inPhase .eStamp1 with tStart := 1000, tus := 1001000, r := 1 })
      (fun t => (t.result, t.rcount, statusWord t)) = some (1, 1, 0x12) := by decide
-- U9.
theorem test_engStamp1_wide :
    exec .engStamp1 { inPhase .eStamp1 with tus := 2147483648000 } = .refused .elapsedTooWide := rfl

/-! ### The host port and the fetch -/

-- V65: writes while BUSY = 1 are ignored.
theorem test_write_busy :
    after (step { inPhase .vPin with host := [.write 0x008 4 5] }) State.pin = some 17 := by decide
-- V71.
theorem test_write_above_pmem :
    after (step { ready with host := [.write 0x1FA0 4 7] }) State.pmem
      = some [(0, 500), (1, 500)] := by decide
-- The last word of PMEM (R33), kept in order.
theorem test_write_last_word :
    after (step { ready with host := [.write 0x1F9C 4 7] }) State.pmem
      = some [(0, 500), (1, 500), (999, 7)] := by decide
-- V69.
theorem test_read_constant :
    after (step { ready with host := [.read 0x020 4] }) State.rdata = some 100000 := by decide
-- V66.
theorem test_write_ctrl_reserved :
    step { ready with host := [.write 0x000 4 3] } = .refused (.undecodable .reservedCommand) := rfl

-- R33: an address is BASE and the offset; U8: a read above PMEM has no meaning.
theorem test_read_from_base :
    after (step { ready with params := { ideal with base := 0x2000 }, host := [.read 0x2008 4] })
      State.rdata = some 17 := by decide
theorem test_read_above_pmem :
    step { ready with host := [.read 0x1FA0 4] } = .refused .badHostAccess := rfl
-- R130: RESULT holds the code the machine is configured with.
theorem test_error_code_of_machine :
    after (exec .chkPin { inPhase .vPin with
        pin := 28
        params := { ideal with errCodes := { Config.errCodes with invalidGpio := -9 } } })
      State.result = some (-9) := by decide

/-- Whether a step ends in a next state. -/
def runs (a : Answer) : Bool := (after a fun _ => ()).isSome

-- The first step after reset runs a placed instruction, of each format.
theorem test_first_command :
    runs (step (State.reset.withFetchWord 32 1)) = true ∧
    runs (step (State.reset.withFetchWord 32 2)) = true := by decide
theorem test_first_primitive :
    [0, 0x31000000, 0x51000001, 0x600001F4, 0x80000000].all
      (fun w => runs (step (State.reset.withFetchWord 32 w))) = true := by decide
theorem test_first_pulse :
    runs (step (State.reset.withFetchWord 40 0x0000001F4)) = true ∧
    runs (step (State.reset.withFetchWord 40 0x1000001F4)) = true := by decide
theorem test_first_phase :
    [2, 3, 4, 5, 6, 7, 8, 9, 10, 11, 12].all
      (fun w => runs (step (State.reset.withFetchWord 8 w))) = true := by decide

/-! ### Invariants of a concrete state -/

/-- The plan of `ready` is legal. -/
theorem ready_plan : PlanLegal ready := by
  unfold PlanLegal ScalarsLegal ScannedTo
  decide

theorem driving_plan (p : Phase) (l : Level) : PlanLegal (driving p l) := by
  have h (s : State) (h : s.pin = ready.pin ∧ s.repeats = ready.repeats ∧ s.count = ready.count ∧
      s.pmem = ready.pmem ∧ s.epoch = ready.epoch) : PlanLegal s := by
    obtain ⟨h1, h2, h3, h4, h5⟩ := h
    have hw (i : Nat) : pulseWord s i = pulseWord ready i := pulseWord_congr ready s h4 h5 i
    have hc : pulseCount s = 2 := by unfold pulseCount; rw [h3]; rfl
    have hs : scanSum s 2 = 1000 := by simp only [scanSum, hw]; decide
    refine ⟨?_, ?_, ?_⟩
    · unfold ScalarsLegal; rw [h1, h2, h3]; decide
    · intro j hj
      rw [hc] at hj
      rw [hw]
      rcases j with _ | _ | j
      · decide
      · decide
      · omega
    · rw [hc, hs]; decide
  exact h _ ⟨rfl, rfl, rfl, rfl, rfl⟩

/-- A state of the scheduler that the guard holds in: the first pulse of P1. -/
theorem hold_guarded : Guarded (driving .eHold .low) :=
  ⟨by unfold FlagsCoherent; decide, ⟨driving_plan _ _, by decide, by decide⟩,
    by unfold CountersBounded; decide⟩

theorem hold_pin_held : PinHeld (driving .eHold .low) := ⟨rfl, rfl⟩
theorem hold_clock_ordered : ClockOrdered (driving .eHold .low) := by
  unfold ClockOrdered
  decide

/-- The end of P1: the pin is an output and LOW. -/
theorem stamp_pin_held : PinHeld (driving .eStamp1 .low) := ⟨rfl, rfl⟩

/-! ### Witnesses: what the hypotheses of each obligation ask can be met -/

theorem witness_EncodedInstructionDecodesBack :
    PortCodesLegal Config.portCodes ∧ PortCodesLegal otherCodes := by
  unfold PortCodesLegal
  decide

theorem witness_DecodedCodeEncodesBack :
    PortCodesLegal Config.portCodes ∧
    decode Config.portCodes (.primitive 0x31000000) = .ok (.cfg 17) ∧
    (Code.primitive 0x31000000) ≠ .phase 1 := ⟨portCodes_legal, rfl, by decide⟩

theorem witness_ReservedCodesRefused :
    ((0 : Word) ≠ 1 ∧ (0 : Word) ≠ 2) ∧ ((3 : Word) ≠ 1 ∧ (3 : Word) ≠ 2) ∧
    (0x31000000 : PortWord).extractLsb' 29 3 ∉
      [otherCodes.setup, otherCodes.cfg, otherCodes.wr, otherCodes.dly, otherCodes.now] ∧
    5 ≤ ((0xA0000000 : PortWord).extractLsb' 29 3).toNat ∧
    5 ≤ ((0xFFFFFFFF : PortWord).extractLsb' 29 3).toNat ∧
    ((14 : BitVec 4) = 0 ∨ (14 : BitVec 4) = 14 ∨ (14 : BitVec 4) = 15) ∧
    (0x000020000 : BitVec 33).extractLsb' 17 15 ≠ 0 := by decide

theorem witness_StepRunsDecodedInstruction :
    (({ ready with port := some 0x80000000 } : State).port = some 0x80000000 ∧
      decode ideal.portCodes (.primitive 0x80000000) = .ok .now) ∧
    (({ ready with host := [.write 0x000 4 1] } : State).port = none ∧
      ({ ready with host := [.write 0x000 4 1] } : State).host =
        .write (ideal.base + 0x000) 4 1 :: [] ∧
      ({ ready with host := [.write 0x000 4 1] } : State).busy = false ∧
      decode ideal.portCodes (.command 1) = .ok .tx) ∧
    ((inPhase .vPin).port = none ∧ (inPhase .vPin).host = [] ∧ (inPhase .vPin).phase ≠ .idle ∧
      decode ideal.portCodes (.phase (phaseCode (inPhase .vPin).phase)) = .ok .chkPin) :=
  ⟨⟨rfl, rfl⟩, ⟨rfl, rfl, rfl, rfl⟩, rfl, rfl, by decide, rfl⟩

theorem witness_IdleOnlyLetsTimePass :
    (ready.port = none ∧ ready.phase = .idle ∧ ready.host = []) ∧
    (({ ready with host := [.pass 7] } : State).port = none ∧
      ({ ready with host := [.pass 7] } : State).host = .pass 7 :: []) :=
  ⟨⟨rfl, rfl, rfl⟩, rfl, rfl⟩

theorem witness_ResetLineRestoresResetValues :
    (({ inPhase .vPin with host := [.reset] } : State).port = none ∧
      ({ inPhase .vPin with host := [.reset] } : State).host = .reset :: [] ∧
      ({ inPhase .vPin with host := [.reset] } : State).busy = true) ∧
    (({ ready with host := [.reset] } : State).port = none ∧
      ({ ready with host := [.reset] } : State).host = .reset :: [] ∧
      ({ ready with host := [.reset] } : State).busy = false) :=
  ⟨⟨rfl, rfl, rfl⟩, rfl, rfl, rfl⟩

/-- `ready`, or `ready` in another state of `BUSY` and `INITST`, about to be started. -/
def starting (busy : Bool) (i : InitState) : State :=
  { ready with host := [.write 0x000 4 1], busy := busy, initst := i }

theorem witness_TxStartsOnlyWhenReadyAndIdle :
    ((starting true .ready).port = none ∧ (starting true .ready).host =
        .write ((starting true .ready).params.base + 0x000) 4 1 :: [] ∧
      (starting true .ready).busy = true) ∧
    ((starting false .uninit).busy = false ∧ (starting false .uninit).initst ≠ .ready) ∧
    ((starting false .fatal).busy = false ∧ (starting false .fatal).initst ≠ .ready) ∧
    ((starting false .ready).busy = false ∧ (starting false .ready).initst = .ready) :=
  ⟨⟨rfl, rfl, rfl⟩, ⟨rfl, by decide⟩, ⟨rfl, by decide⟩, rfl, rfl⟩

theorem witness_TxCommandStarts : ready.busy = false ∧ ready.initst = .ready := ⟨rfl, rfl⟩

theorem witness_TxDefaultWritesFourRepeats :
    (ready.busy = false ∧ ready.initst = .ready) ∧ (inPhase .vPin).busy = true ∧
    (State.reset.busy = false ∧ State.reset.initst ≠ .ready) :=
  ⟨⟨rfl, rfl⟩, rfl, rfl, by decide⟩

theorem witness_InitStartsAndIsIdempotent :
    ready.busy = false ∧ ((inPhase .vPin).busy = true ∧ (inPhase .vPin).phase ≠ .iSetup) ∧
    ((inPhase .iSetup).busy = true ∧ (inPhase .iSetup).phase = .iSetup ∧
      (inPhase .iSetup).initst ≠ .uninit) := ⟨rfl, ⟨rfl, by decide⟩, rfl, rfl, by decide⟩

theorem witness_InitFromUninitCallsSetup :
    ({ inPhase .iSetup with initst := .uninit } : State).busy = true ∧
    ({ inPhase .iSetup with initst := .uninit } : State).phase = .iSetup ∧
    ({ inPhase .iSetup with initst := .uninit } : State).initst = .uninit := ⟨rfl, rfl, rfl⟩

theorem witness_CfgMakesPinOutput :
    (2 : BitVec 5).toNat = pinNumber 0 ∧ (27 : BitVec 5).toNat = pinNumber 25 := by decide

theorem witness_WrDrivesPin :
    (2 : BitVec 5).toNat = pinNumber 0 ∧ (27 : BitVec 5).toNat = pinNumber 25 := by decide

theorem witness_NothingActsOnWhatDoesNotExist :
    (¬(2 ≤ (1 : BitVec 5).toNat ∧ (1 : BitVec 5).toNat ≤ 27) ∧
      ¬(2 ≤ (28 : BitVec 5).toNat ∧ (28 : BitVec 5).toNat ≤ 27)) ∧
    ¬(2 ≤ ({ ready with pin := 28 } : State).pin.toInt ∧
      ({ ready with pin := 28 } : State).pin.toInt ≤ 27) ∧
    1000 ≤ ({ ready with i := 1000 } : State).i ∧
    (({ ready with pmem := [(0, 131072)] } : State).i < 1000 ∧
      2 ^ 17 ≤ (pulseWord { ready with pmem := [(0, 131072)] } 0).toNat) := by decide

theorem witness_HoldHighDrivesHighThenHolds : (driving .eHold .low).pin.toInt = pinNumber 15 := by
  decide
theorem witness_HoldLowDrivesLowThenHolds : (driving .eHold .high).pin.toInt = pinNumber 15 := by
  decide

theorem witness_EngHoldPlaysTheWordAtI :
    (driving .eHold .low).pin.toInt = pinNumber 15 ∧ (driving .eHold .low).i < 1000 ∧
    1 ≤ (pulseWord (driving .eHold .low) (driving .eHold .low).i).toInt ∧
    (pulseWord (driving .eHold .low) (driving .eHold .low).i).toInt ≤ 100000 := by decide

theorem witness_ChkLenAcceptsOneToHundredThousand :
    (inPhase .vLen).i < 1000 ∧ ({ inPhase .vLen with i := 999 } : State).i < 1000 := by decide
theorem witness_ChkSumBoundsEveryPrefix :
    (inPhase .vSum).i < 1000 ∧ ({ inPhase .vSum with i := 999 } : State).i < 1000 := by decide

theorem witness_EngCfgConfiguresTheRequestedPin : (inPhase .eCfg).pin.toInt = pinNumber 15 := by
  decide
theorem witness_EngDeassertWritesLow : (driving .eDeassert .low).pin.toInt = pinNumber 15 := by
  decide

theorem witness_EngStampOneReturnsTheElapsedTime :
    (-2 ^ 31 ≤ (clockAnswer { inPhase .eStamp1 with tus := 2147483647999 } : Int) -
        (inPhase .eStamp1).tStart ∧
      (clockAnswer { inPhase .eStamp1 with tus := 2147483647999 } : Int) -
        (inPhase .eStamp1).tStart ≤ 2 ^ 31 - 1) ∧
    (clockAnswer { inPhase .eStamp1 with tus := 2147483648000 } : Int) -
      (inPhase .eStamp1).tStart > 2 ^ 31 - 1 := by decide

theorem witness_NoInstructionWritesTheRequest :
    (∃ t, exec .engHold (driving .eHold .low) = .next t) ∧ Instr.engHold ≠ .txDefault :=
  ⟨⟨_, rfl⟩, by decide⟩

theorem witness_CheckerIssuesNoPrimitive :
    (∃ t, exec .chkPin (inPhase .vPin) = .next t) ∧
    Instr.chkPin ∈ [Instr.chkPin, .chkRep, .chkCnt, .chkPar, .chkLen, .chkSum] :=
  ⟨⟨_, rfl⟩, by decide⟩

theorem witness_OnlyTheCheckerRaisesErrors :
    (∃ t, exec .engBudget (inPhase .eBudget) = .next t) ∧
    Instr.engBudget ∉ [Instr.chkPin, .chkRep, .chkCnt, .chkPar, .chkLen, .chkSum, .init] ∧
    Instr.engBudget ≠ .engStamp1 := ⟨⟨_, rfl⟩, by decide, by decide⟩

theorem witness_OnlyTheNamedPinChanges :
    (∃ t, exec (.cfg 17) ready = .next t) ∧ (17 : BitVec 5).toNat ≠ pinNumber 14 ∧
    (∃ t, exec .engDeassert (driving .eDeassert .low) = .next t) ∧
    (driving .eDeassert .low).pin.toInt ≠ pinNumber 16 := ⟨⟨_, rfl⟩, by decide, ⟨_, rfl⟩, by decide⟩

theorem witness_ErrorCodesNegativeAndDistinct :
    ∃ t, step (driving .eHold .low) = .next t := ⟨_, rfl⟩

theorem witness_UnknownIsNeverRaised :
    ErrCodesLegal (inPhase .eStamp1).params.errCodes ∧
    (∃ t, exec .engStamp1 (inPhase .eStamp1) = .next t) ∧
    (inPhase .eStamp1).tStart ≤ clockAnswer (inPhase .eStamp1) ∧
    (inPhase .eStamp1).result ≠ errCode (inPhase .eStamp1).params.errCodes .unknown :=
  ⟨errCodes_legal, ⟨_, rfl⟩, by decide, by decide⟩

theorem witness_TraceOnlyGrows : ∃ t, exec .now ready = .next t := ⟨_, rfl⟩

theorem witness_TimeNeverDecreases :
    (∃ t, step (driving .eHold .low) = .next t) ∧ ClockOrdered (driving .eHold .low) :=
  ⟨⟨_, rfl⟩, hold_clock_ordered⟩

theorem witness_RegistersReadTheirContents :
    ({ ready with done := true } : State).done = true ∧ 0 < 1000 ∧ 999 < 1000 := by decide

/-- `ready` at address 0x2000, about to make a host move. -/
def moving (m : HostMove) : State :=
  { ready with host := [m], params := { ideal with base := 0x2000 } }

theorem witness_HostReadsHaveNoSideEffect :
    (moving (.read 0x3000 4)).port = none ∧
    (moving (.read 0x3000 4)).host =
      .read ((moving (.read 0x3000 4)).params.base + 0x1000) 4 :: [] ∧
    hostValue 0x1000 (moving (.read 0x3000 4)) = some 500 := ⟨rfl, rfl, by decide⟩

theorem witness_HostWritesIgnoredWhileBusy :
    (({ moving (.write 0x2010 4 6) with busy := true } : State).busy = true ∧
      ({ moving (.write 0x2010 4 6) with busy := true } : State).port = none ∧
      ({ moving (.write 0x2010 4 6) with busy := true } : State).host =
        .write ((moving (.write 0x2010 4 6)).params.base + 0x010) 4 6 :: []) ∧
    0x010 ∈ [0x000, 0x008, 0x00C, 0x010] ∧ (999 < 1000 ∧ 0x1F9C = 0x1000 + 4 * 999) :=
  ⟨⟨rfl, rfl, rfl⟩, by decide, by decide⟩

theorem witness_HostWritesStoreTheRequest :
    (moving (.write 0x2008 4 2)).port = none ∧ (moving (.write 0x2008 4 2)).busy = false ∧
    (moving (.write 0x2008 4 2)).host =
      .write ((moving (.write 0x2008 4 2)).params.base + 0x008) 4 2 :: [] ∧
    (moving (.write 0x200C 4 2)).host =
      .write ((moving (.write 0x200C 4 2)).params.base + 0x00C) 4 2 :: [] ∧
    (moving (.write 0x2010 4 2)).host =
      .write ((moving (.write 0x2010 4 2)).params.base + 0x010) 4 2 :: [] ∧
    (moving (.write 0x3F9C 4 2)).host =
      .write ((moving (.write 0x3F9C 4 2)).params.base + (0x1000 + 4 * 999)) 4 2 :: [] ∧
    999 < 1000 := ⟨rfl, rfl, rfl, rfl, rfl, rfl, by decide⟩

theorem witness_ReadOnlyWritesIgnored :
    ((moving (.write 0x201C 4 6)).port = none ∧
      (moving (.write 0x201C 4 6)).host =
        .write ((moving (.write 0x201C 4 6)).params.base + 0x01C) 4 6 :: []) ∧
    0x01C ∈ [0x004, 0x014, 0x018, 0x01C, 0x020, 0x024, 0x028, 0x02C, 0x030, 0x034, 0x038] ∧
    (1000 ≤ 1000 ∧ 0x1FA0 = 0x1000 + 4 * 1000) := ⟨⟨rfl, rfl⟩, by decide, by decide⟩

theorem witness_MeaninglessAccessesRefused :
    ((moving (.write 0x203C 4 6)).host =
        .write ((moving (.write 0x203C 4 6)).params.base + 0x03C) 4 6 :: [] ∧
      (moving (.write 0x203C 4 6)).port = none ∧ (0x03C ≤ 0x03C ∧ 0x03C < 0x1000)) ∧
    ((moving (.read 0x2FFC 4)).host =
        .read ((moving (.read 0x2FFC 4)).params.base + 0xFFC) 4 :: [] ∧
      (0x03C ≤ 0xFFC ∧ 0xFFC < 0x1000)) ∧
    ((moving (.read 0x2009 4)).host =
        .read ((moving (.read 0x2009 4)).params.base + 0x009) 4 :: [] ∧ 0x009 % 4 ≠ 0) ∧
    ((moving (.write 0x2008 2 6)).host =
        .write ((moving (.write 0x2008 2 6)).params.base + 0x008) 2 6 :: [] ∧ 2 ≠ 4) ∧
    ((moving (.read 0x3FA0 4)).host =
        .read ((moving (.read 0x3FA0 4)).params.base + (0x1000 + 4 * 1000)) 4 :: [] ∧
      1000 ≤ 1000 ∧ 0x1FA0 = 0x1000 + 4 * 1000) ∧
    ((moving (.read 0x1FFC 4)).host = .read 0x1FFC 4 :: [] ∧
      0x1FFC < (moving (.read 0x1FFC 4)).params.base) ∧
    ((moving (.write 0x2000 4 3)).host =
        .write ((moving (.write 0x2000 4 3)).params.base + 0x000) 4 3 :: [] ∧
      (moving (.write 0x2000 4 3)).busy = false ∧ (3 : Word) ≠ 1 ∧ (3 : Word) ≠ 2) :=
  ⟨⟨rfl, rfl, by decide⟩, ⟨rfl, by decide⟩, ⟨rfl, by decide⟩, ⟨rfl, by decide⟩,
    ⟨rfl, by decide⟩, ⟨rfl, by decide⟩, rfl, rfl, by decide⟩

theorem witness_StepKeepsMemoryCanonical :
    Memory.wf ready.pmem = true ∧ ∃ t, step { ready with host := [.write 0x1000 4 1] } = .next t :=
  ⟨rfl, _, rfl⟩

theorem witness_StepKeepsSchedulerGuarded :
    Guarded (driving .eHold .low) ∧ ∃ t, step (driving .eHold .low) = .next t :=
  ⟨hold_guarded, _, rfl⟩

theorem witness_StepKeepsClockOrdered :
    ClockOrdered (driving .eHold .low) ∧ ∃ t, step (driving .eHold .low) = .next t :=
  ⟨hold_clock_ordered, _, rfl⟩

theorem witness_StepKeepsPinHeld :
    Guarded (driving .eHold .low) ∧ PinHeld (driving .eHold .low) ∧
    ∃ t, step (driving .eHold .low) = .next t := ⟨hold_guarded, hold_pin_held, _, rfl⟩

theorem witness_GuardedMachineNeverFaults :
    Guarded (driving .eHold .low) ∧ (driving .eHold .low).port = none := ⟨hold_guarded, rfl⟩

theorem witness_TransmissionLeavesPinLow :
    PinHeld (driving .eStamp1 .low) ∧ Undisturbed (driving .eStamp1 .low) ∧
    (driving .eStamp1 .low).phase = .eStamp1 ∧
    ∃ t, step (driving .eStamp1 .low) = .next t := ⟨stamp_pin_held, ⟨rfl, rfl⟩, rfl, _, rfl⟩

theorem witness_CheckerReachesTheVerdict :
    Undisturbed (inPhase .vPin) ∧ (inPhase .vPin).phase = .vPin := ⟨⟨rfl, rfl⟩, rfl⟩

theorem witness_PassPlaysEveryPulseInOrder :
    Undisturbed (driving .eHold .low) ∧ PlanLegal (driving .eHold .low) ∧
    (driving .eHold .low).phase = .eHold ∧ (driving .eHold .low).i = 0 :=
  ⟨⟨rfl, rfl⟩, driving_plan _ _, rfl, rfl⟩

theorem witness_TransmissionPlaysWholePassesThenLow :
    Undisturbed (driving .eCfg .low) ∧ PlanLegal (driving .eCfg .low) ∧
    (driving .eCfg .low).phase = .eCfg := ⟨⟨rfl, rfl⟩, driving_plan _ _, rfl⟩

end Sys2Proof.Tests
end

/-! PROOFS. The codec of 30_encoding.md, place by place: what the decoder answers on the codes
the encoder writes there, and that it answers on no other code but phase code 1. -/

namespace Sys2Proof.Codec

open Sys2Proof.Machine

/-! ### Zero-extended fields -/

/-- A zero-extended field is 0 above its own bits. -/
@[simp] theorem extractLsb'_setWidth_high {n w m : Nat} (x : BitVec n) :
    (x.setWidth w).extractLsb' n m = 0 := by
  ext i hi
  simp

/-- A zero-extended field is read back from its own bits. -/
theorem extractLsb'_setWidth_low {n w : Nat} (h : n ≤ w) (x : BitVec n) :
    (x.setWidth w).extractLsb' 0 n = x := by
  rw [BitVec.extractLsb'_setWidth_of_le (by omega), BitVec.extractLsb'_eq_self]

/-- A value that is 0 above its low `n` bits is those bits, zero-extended. -/
theorem setWidth_extractLsb'_of_high_eq_zero {w : Nat} (n m : Nat) (x : BitVec w) (hw : w ≤ n + m)
    (h : x.extractLsb' n m = 0) : (x.extractLsb' 0 n).setWidth w = x := by
  ext i hi
  by_cases hn : i < n
  case pos => simp [hn, hi]
  case neg =>
    have hb : (x.extractLsb' n m).getLsbD (i - n) = false := by rw [h]; exact BitVec.getLsbD_zero
    rw [BitVec.getLsbD_extractLsb', show n + (i - n) = i by omega] at hb
    simp_all [show i - n < m by omega]

/-! ### Codes with fields that must be 0 -/

/-- A decoder that answers only under a guard has answered, so the guard held. -/
theorem guard_of_ok {c : Prop} [Decidable c] {e : DecodeError} {i j : Instr}
    (h : (if c then .ok j else .error e : Except DecodeError Instr) = .ok i) : c ∧ j = i := by
  split at h
  case isTrue hc => cases h; exact ⟨hc, rfl⟩
  case isFalse => cases h

/-! ### Format C: the `CTRL` value (R48) -/

theorem encode_of_decodeCommand (k : PortCodes) (w : Word) (i : Instr)
    (h : decodeCommand w = .ok i) : encode k i = .command w := by
  unfold decodeCommand at h
  split at h
  case isTrue hw => cases h; rw [hw]; rfl
  case isFalse =>
    split at h
    case isTrue hw => cases h; rw [hw]; rfl
    case isFalse => cases h

/-! ### Format O: the pin-port word (R49, R50) -/

/-- The pin-port word of the fields `op[31:29]`, `pin[28:24]` and `arg[23:0]` (R49). -/
def portWord (op : BitVec 3) (pin : BitVec 5) (arg : BitVec 24) : PortWord :=
  BitVec.ofNat 32 (op.toNat * 2 ^ 29 + pin.toNat * 2 ^ 24 + arg.toNat)

@[simp] theorem portWord_op (op : BitVec 3) (pin : BitVec 5) (arg : BitVec 24) :
    (portWord op pin arg).extractLsb' 29 3 = op := by
  apply BitVec.eq_of_toNat_eq
  rw [portWord, BitVec.extractLsb'_toNat, BitVec.toNat_ofNat, Nat.shiftRight_eq_div_pow]
  omega

@[simp] theorem portWord_pin (op : BitVec 3) (pin : BitVec 5) (arg : BitVec 24) :
    (portWord op pin arg).extractLsb' 24 5 = pin := by
  apply BitVec.eq_of_toNat_eq
  rw [portWord, BitVec.extractLsb'_toNat, BitVec.toNat_ofNat, Nat.shiftRight_eq_div_pow]
  omega

@[simp] theorem portWord_arg (op : BitVec 3) (pin : BitVec 5) (arg : BitVec 24) :
    (portWord op pin arg).extractLsb' 0 24 = arg := by
  apply BitVec.eq_of_toNat_eq
  rw [portWord, BitVec.extractLsb'_toNat, BitVec.toNat_ofNat, Nat.shiftRight_eq_div_pow]
  omega

/-- A pin-port word has no bit outside its three fields. -/
theorem portWord_fields (w : PortWord) :
    portWord (w.extractLsb' 29 3) (w.extractLsb' 24 5) (w.extractLsb' 0 24) = w := by
  apply BitVec.eq_of_toNat_eq
  simp only [portWord, BitVec.extractLsb'_toNat, BitVec.toNat_ofNat, Nat.shiftRight_eq_div_pow]
  omega

theorem encode_setup (k : PortCodes) : encode k .setup = .primitive (portWord k.setup 0 0) := by
  simp [encode, portWord]

theorem encode_cfg (k : PortCodes) (p : BitVec 5) :
    encode k (.cfg p) = .primitive (portWord k.cfg p 0) := by
  simp [encode, portWord]

theorem encode_wr (k : PortCodes) (p : BitVec 5) (l : Level) :
    encode k (.wr p l) = .primitive (portWord k.wr p ((levelCode k l).setWidth 24)) := by
  rw [encode, portWord, BitVec.toNat_setWidth_of_le (by decide)]

theorem encode_dly (k : PortCodes) (d : BitVec 17) :
    encode k (.dly d) = .primitive (portWord k.dly 0 (d.setWidth 24)) := by
  rw [portWord, BitVec.toNat_setWidth_of_le (by decide)]
  simp [encode]

theorem encode_now (k : PortCodes) : encode k .now = .primitive (portWord k.now 0 0) := by
  simp [encode, portWord]

/-- The bit of a level is the bit read as that level. -/
theorem levelCode_levelOfCode (k : PortCodes) (hk : PortCodesLegal k) (b : BitVec 1) :
    levelCode k (levelOfCode k b) = b := by
  have two (x y z : BitVec 1) : x ≠ y → z ≠ x → y = z := by decide +revert
  unfold levelOfCode
  split
  case isTrue hb => exact hb.symm
  case isFalse hb => exact two _ _ _ hk.2 hb

/-- No code of an operation is the code of one that the decoder tests before it. -/
theorem opcodes_ne {k : PortCodes} (hk : PortCodesLegal k) :
    k.cfg ≠ k.setup ∧ (k.wr ≠ k.setup ∧ k.wr ≠ k.cfg) ∧
      (k.dly ≠ k.setup ∧ k.dly ≠ k.cfg ∧ k.dly ≠ k.wr) ∧
      (k.now ≠ k.setup ∧ k.now ≠ k.cfg ∧ k.now ≠ k.wr ∧ k.now ≠ k.dly) := by
  obtain ⟨hop, -⟩ := hk
  simp only [List.nodup_cons, List.mem_cons] at hop
  tauto

section PrimitiveDecoder

variable {k : PortCodes} (p : BitVec 5) (a : BitVec 24)

theorem decodePrimitive_setup :
    decodePrimitive k (portWord k.setup p a) =
      if p = 0 ∧ a = 0 then .ok .setup else .error .reservedPrimitive := by
  simp [decodePrimitive]

theorem decodePrimitive_cfg (hk : PortCodesLegal k) :
    decodePrimitive k (portWord k.cfg p a) =
      if a = 0 then .ok (.cfg p) else .error .reservedPrimitive := by
  simp [decodePrimitive, opcodes_ne hk]

theorem decodePrimitive_wr (hk : PortCodesLegal k) :
    decodePrimitive k (portWord k.wr p a) =
      if a.extractLsb' 1 23 = 0 then .ok (.wr p (levelOfCode k (a.extractLsb' 0 1)))
      else .error .reservedPrimitive := by
  simp [decodePrimitive, opcodes_ne hk]

theorem decodePrimitive_dly (hk : PortCodesLegal k) :
    decodePrimitive k (portWord k.dly p a) =
      if p = 0 ∧ a.extractLsb' 17 7 = 0 then .ok (.dly (a.extractLsb' 0 17))
      else .error .reservedPrimitive := by
  simp [decodePrimitive, opcodes_ne hk]

theorem decodePrimitive_now (hk : PortCodesLegal k) :
    decodePrimitive k (portWord k.now p a) =
      if p = 0 ∧ a = 0 then .ok .now else .error .reservedPrimitive := by
  simp [decodePrimitive, opcodes_ne hk]

theorem decodePrimitive_reserved (op : BitVec 3)
    (hop : op ∉ [k.setup, k.cfg, k.wr, k.dly, k.now]) :
    decodePrimitive k (portWord op p a) = .error .reservedPrimitive := by
  simp_all [decodePrimitive]

end PrimitiveDecoder

/-- The encoder gives back a pin-port word that decodes, whichever of the five codes its `op`
is. -/
theorem encode_of_decodePrimitive {k : PortCodes} (hk : PortCodesLegal k) (w : PortWord)
    (i : Instr) (h : decodePrimitive k w = .ok i) : encode k i = .primitive w := by
  obtain ⟨op, p, a, rfl⟩ : ∃ op p a, portWord op p a = w := ⟨_, _, _, portWord_fields w⟩
  by_cases hop : op ∈ [k.setup, k.cfg, k.wr, k.dly, k.now]
  case neg => rw [decodePrimitive_reserved p a op hop] at h; cases h
  case pos =>
    simp only [List.mem_cons, List.not_mem_nil, or_false] at hop
    rcases hop with rfl | rfl | rfl | rfl | rfl
    · rw [decodePrimitive_setup] at h
      obtain ⟨⟨rfl, rfl⟩, rfl⟩ := guard_of_ok h
      exact encode_setup k
    · rw [decodePrimitive_cfg p a hk] at h
      obtain ⟨rfl, rfl⟩ := guard_of_ok h
      exact encode_cfg k p
    · rw [decodePrimitive_wr p a hk] at h
      obtain ⟨ha, rfl⟩ := guard_of_ok h
      rw [encode_wr, levelCode_levelOfCode k hk,
        setWidth_extractLsb'_of_high_eq_zero 1 23 a (by decide) ha]
    · rw [decodePrimitive_dly p a hk] at h
      obtain ⟨⟨rfl, ha⟩, rfl⟩ := guard_of_ok h
      rw [encode_dly, setWidth_extractLsb'_of_high_eq_zero 17 7 a (by decide) ha]
    · rw [decodePrimitive_now p a hk] at h
      obtain ⟨⟨rfl, rfl⟩, rfl⟩ := guard_of_ok h
      exact encode_now k

/-! ### Format P: the pulse pattern (R46) -/

/-- The pulse instruction of a duration at index `n`: an even index holds HIGH, an odd one LOW
(R46). -/
def pulseInstr (n : Nat) (d : BitVec 17) : Instr := if n % 2 = 0 then .holdH d else .holdL d

theorem encode_pulseInstr (k : PortCodes) (n : Nat) (d : BitVec 17) :
    encode k (pulseInstr n d) = .pulse (pulsePattern n (d.setWidth 32)) := by
  rw [pulseInstr, pulsePattern, BitVec.toNat_setWidth_of_le (by decide)]
  rcases Nat.mod_two_eq_zero_or_one n with hn | hn <;> simp [hn, encode]

theorem decodePulse_pulsePattern (n : Nat) (w : Word) :
    decodePulse (pulsePattern n w) =
      if w.extractLsb' 17 15 = 0 then .ok (pulseInstr n (w.extractLsb' 0 17))
      else .error .notPulseWord := by
  rw [decodePulse, pulsePattern_high, pulsePattern_low, pulsePattern_index,
    ← Nat.shiftRight_eq_div_pow, pulseInstr]
  rcases Nat.mod_two_eq_zero_or_one n with hn | hn <;> simp [hn, BitVec.extractLsb']

/-- A pulse pattern has no bit outside the index bit and the word. -/
theorem pulsePattern_fields (x : BitVec 33) :
    pulsePattern (x.toNat / 2 ^ 32) (x.setWidth 32) = x := by
  apply BitVec.eq_of_toNat_eq
  rw [pulsePattern, BitVec.toNat_ofNat, BitVec.toNat_setWidth, Config.argw]
  omega

theorem decode_encode_pulseInstr (k : PortCodes) (n : Nat) (d : BitVec 17) :
    decode k (encode k (pulseInstr n d)) = .ok (pulseInstr n d) := by
  rw [encode_pulseInstr, decode, decodePulse_pulsePattern, extractLsb'_setWidth_high,
    extractLsb'_setWidth_low (by decide), if_pos rfl]

theorem encode_of_decodePulse (k : PortCodes) (x : BitVec 33) (i : Instr)
    (h : decodePulse x = .ok i) : encode k i = .pulse x := by
  obtain ⟨n, w, rfl⟩ : ∃ n w, pulsePattern n w = x := ⟨_, _, pulsePattern_fields x⟩
  rw [decodePulse_pulsePattern] at h
  obtain ⟨hw, rfl⟩ := guard_of_ok h
  rw [encode_pulseInstr, setWidth_extractLsb'_of_high_eq_zero 17 15 w (by decide) hw]

/-! ### Format PHASE (R53) -/

/-- A code that names a phase is that phase's code. -/
theorem phaseCode_of_phaseOfCode (c : BitVec 4) (p : Phase) (h : phaseOfCode c = some p) :
    phaseCode p = c := by
  have hall : ∀ c : BitVec 4, (phaseOfCode c).all (phaseCode · = c) := by decide
  simpa [h] using hall c

/-- The encoder writes the code of the phase an operation runs in, but for `INIT`, which has
its own `CTRL` value. -/
theorem encode_of_phaseOperation (k : PortCodes) (p : Phase) (i : Instr) (hp : p ≠ .iSetup)
    (h : phaseOperation p = some i) : encode k i = .phase (phaseCode p) := by
  cases p with
  | idle => cases h
  | iSetup => exact absurd rfl hp
  | vPin | vRep | vCnt | vPar | vLen | vSum => cases h; rfl
  | eCfg | eStamp0 | eHold | eBudget | eDeassert | eStamp1 => cases h; rfl

theorem encode_of_decodePhase (k : PortCodes) (c : BitVec 4) (i : Instr) (hc : c ≠ 1)
    (h : decodePhase c = .ok i) : encode k i = .phase c := by
  unfold decodePhase at h
  split at h
  case h_1 j hj =>
    cases h
    obtain ⟨p, hp, hi⟩ := Option.bind_eq_some_iff.mp hj
    obtain rfl := phaseCode_of_phaseOfCode c p hp
    exact encode_of_phaseOperation k p _ (by rintro rfl; exact hc rfl) hi
  case h_2 => cases h

/-! ### The obligations -/

/-- Settles O1: each place's decoder answers the instruction on the code the encoder writes
there. -/
theorem encodedInstructionDecodesBack : Obligations.EncodedInstructionDecodesBack := by
  intro k hk i
  cases i with
  | tx | init | txDefault => rfl
  | holdH d => exact decode_encode_pulseInstr k 0 d
  | holdL d => exact decode_encode_pulseInstr k 1 d
  | setup => rw [encode_setup]; exact decodePrimitive_setup 0 0
  | cfg p => rw [encode_cfg]; exact decodePrimitive_cfg p 0 hk
  | wr p l =>
    rw [encode_wr, decode, decodePrimitive_wr p _ hk, extractLsb'_setWidth_high,
      extractLsb'_setWidth_low (by decide), levelOfCode_levelCode k hk]
    rfl
  | dly d =>
    rw [encode_dly, decode, decodePrimitive_dly 0 _ hk, extractLsb'_setWidth_high,
      extractLsb'_setWidth_low (by decide)]
    rfl
  | now => rw [encode_now]; exact decodePrimitive_now 0 0 hk
  | chkPin | chkRep | chkCnt | chkPar | chkLen | chkSum => rfl
  | engCfg | engStamp0 | engHold | engBudget | engDeassert | engStamp1 => rfl

/-- Settles O2: a code that decodes is one the encoder writes, place by place. -/
theorem decodedCodeEncodesBack : Obligations.DecodedCodeEncodesBack := by
  intro k hk c i h hc
  cases c with
  | command w => exact encode_of_decodeCommand k w i h
  | primitive w => exact encode_of_decodePrimitive hk w i h
  | pulse x => exact encode_of_decodePulse k x i h
  | phase c => exact encode_of_decodePhase k c i (fun h1 => hc (congrArg _ h1)) h

end Sys2Proof.Codec

/-! PROOFS. The state of 10_state.md: what an instruction leaves of it, what the host's turn and
its writes do to it, what the host reads of it, and its values at reset. -/

namespace Sys2Proof.StateLaws

open Sys2Proof.Machine

/-! ### What every instruction leaves alone (R22, R25, R34) -/

/-- The host's side of the state is as before an instruction, `REPEATS` too unless it is
`TX.default` (R25, R55), and the trace goes on from where it was by at most two events (R22). -/
structure ExecFrame (i : Instr) (s t : State) : Prop where
  pin : t.pin = s.pin := by simp
  repeats : i ≠ .txDefault → t.repeats = s.repeats := by simp
  count : t.count = s.count := by simp
  pmem : t.pmem = s.pmem := by simp
  params : t.params = s.params := by simp
  host : t.host = s.host := by simp
  rdata : t.rdata = s.rdata := by simp
  port : t.port = s.port := by simp
  epoch : t.epoch = s.epoch := by simp
  trace_grows : s.trace <+: t.trace := by simp
  trace_length : t.trace.length ≤ s.trace.length + 2 := by simp

section Frames

variable {i : Instr} {s t : State}

theorem initStep_frame : ExecFrame i s (initStep s) := by
  obtain ⟨-, h⟩ | ⟨-, h⟩ | ⟨-, h⟩ := initStep_cases s <;> rw [h] <;> exact {}

theorem scanOn_frame (x : Int) : ExecFrame i s (scanOn x s) := by
  obtain ⟨-, h⟩ | ⟨-, -, h⟩ | ⟨-, -, h⟩ := scanOn_cases x s <;> rw [h] <;> exact {}

/-- A pulse is two primitives, `Wr` and `Dly`, and the choice of the next phase. -/
theorem playPulse_frame {l : Level} {d : Nat} (h : playPulse l d s = .next t) :
    ExecFrame i s t := by
  obtain ⟨j, -, rfl⟩ := (playPulse_next ..).mp h
  exact {}

/-- Every instruction that ends in a next state keeps the frame. -/
theorem exec_frame (h : exec i s = .next t) : ExecFrame i s t := by
  cases i with
  | tx => obtain ⟨-, rfl⟩ | ⟨-, -, rfl⟩ := launchTx_next _ _ _ h <;> exact {}
  | init =>
    obtain ⟨-, -, rfl⟩ | ⟨-, -, rfl⟩ | ⟨-, rfl⟩ := execInit_next _ _ h
    · exact initStep_frame
    · exact {}
    · exact {}
  | txDefault => obtain ⟨-, rfl⟩ | ⟨-, -, rfl⟩ := launchTx_next _ _ _ h <;> exact {}
  | holdH d => exact playPulse_frame h
  | holdL d => exact playPulse_frame h
  | setup => obtain rfl := next_inj h; exact {}
  | cfg p => obtain ⟨j, -, rfl⟩ := (onPin_next ..).mp h; exact {}
  | wr p l => obtain ⟨j, -, rfl⟩ := (onPin_next ..).mp h; exact {}
  | dly d => obtain rfl := next_inj h; exact {}
  | now => obtain rfl := next_inj h; exact {}
  | chkPin => obtain ⟨-, rfl⟩ | ⟨-, rfl⟩ := execChkPin_next _ _ h <;> exact {}
  | chkRep => obtain ⟨-, rfl⟩ | ⟨-, rfl⟩ := execChkRep_next _ _ h <;> exact {}
  | chkCnt => obtain ⟨-, rfl⟩ | ⟨-, rfl⟩ := execChkCnt_next _ _ h <;> exact {}
  | chkPar => obtain ⟨-, rfl⟩ | ⟨-, rfl⟩ := execChkPar_next _ _ h <;> exact {}
  | chkLen => obtain ⟨-, ⟨-, rfl⟩ | ⟨-, rfl⟩⟩ := execChkLen_next _ _ h <;> exact {}
  | chkSum => obtain ⟨-, rfl⟩ := execChkSum_next _ _ h; exact scanOn_frame _
  | engCfg => obtain ⟨j, -, rfl⟩ := execEngCfg_next _ _ h; exact {}
  | engStamp0 => obtain rfl := next_inj h; exact {}
  | engHold => obtain ⟨-, l, d, j, -, -, rfl⟩ := execEngHold_next _ _ h; exact {}
  | engBudget => obtain rfl := execEngBudget_next _ _ h; exact {}
  | engDeassert => obtain ⟨j, -, rfl⟩ := execEngDeassert_next _ _ h; exact {}
  | engStamp1 => obtain ⟨-, rfl⟩ := execEngStamp1_next _ _ h; exact {}

theorem exec_wf (h : exec i s = .next t) (hs : Memory.wf s.pmem = true) :
    Memory.wf t.pmem = true := by
  rw [(exec_frame h).pmem]
  exact hs

end Frames

/-! ### The host's turn -/

section HostPort

variable {s t : State} {v : Word} {rest : List HostMove}

theorem hostRead_next {addr bytes : Nat} (h : hostRead addr bytes s = .next t) :
    ∃ w, t = { s with rdata := w } := by
  unfold hostRead at h
  split at h
  case isTrue =>
    split at h
    case h_1 w _ => exact ⟨w, next_inj h⟩
    case h_2 => cases h
  case isFalse => cases h

theorem hostWrite_next {addr bytes : Nat} (h : hostWrite addr bytes v s = .next t) :
    (s.busy = true ∧ t = s) ∨ (s.busy = false ∧ ∃ off, hostStore off v s = some t) := by
  unfold hostWrite at h
  split at h
  case isTrue =>
    split at h
    case h_1 u hu =>
      obtain ⟨off, -, hoff⟩ := Option.bind_eq_some_iff.mp hu
      obtain rfl := next_inj h
      cases hb : s.busy with
      | true => exact .inl ⟨rfl, rfl⟩
      | false => exact .inr ⟨rfl, off, hoff⟩
    case h_2 => cases h
  case isFalse => cases h

theorem hostReset_next (h : hostReset s = .next t) : s.busy = false ∧ t = resetPtd s := by
  unfold hostReset at h
  split at h
  case isTrue => cases h
  case isFalse hb => exact ⟨by simpa using hb, next_inj h⟩

/-- Everything the host's turn can be, where it ends in a next state. -/
theorem hostTurn_next (h : hostTurn s = .next t) :
    (s.host = [] ∧ t = (s.addTime s.peek).consume 1) ∨
    (∃ us rest, s.host = .pass us :: rest ∧ t = State.addTime { s with host := rest } us) ∨
    (∃ addr bytes rest w, s.host = .read addr bytes :: rest ∧
      t = { s with host := rest, rdata := w }) ∨
    (∃ addr bytes v rest, s.host = .write addr bytes v :: rest ∧
      ((s.busy = true ∧ t = { s with host := rest }) ∨
        (s.busy = false ∧ ∃ off, hostStore off v { s with host := rest } = some t))) ∨
    (∃ rest, s.host = .txDefault :: rest ∧ exec .txDefault { s with host := rest } = .next t) ∨
    (∃ rest, s.host = .reset :: rest ∧ s.busy = false ∧ t = resetPtd { s with host := rest }) := by
  unfold hostTurn at h
  split at h
  case h_1 hh => exact .inl ⟨hh, next_inj h⟩
  case h_2 us rest hh => exact .inr (.inl ⟨us, rest, hh, next_inj h⟩)
  case h_3 addr bytes rest hh =>
    obtain ⟨w, rfl⟩ := hostRead_next h
    exact .inr (.inr (.inl ⟨addr, bytes, rest, w, hh, rfl⟩))
  case h_4 addr bytes v rest hh =>
    exact .inr (.inr (.inr (.inl ⟨addr, bytes, v, rest, hh, hostWrite_next h⟩)))
  case h_5 rest hh => exact .inr (.inr (.inr (.inr (.inl ⟨rest, hh, h⟩))))
  case h_6 rest hh => exact .inr (.inr (.inr (.inr (.inr ⟨rest, hh, hostReset_next h⟩))))

/-! ### Where a host write stores (R33) -/

/-- Everything a write can store: a request register, nothing, or a word `PMEM` has. -/
theorem hostStore_cases {off : Nat} (h : hostStore off v s = some t) :
    t = { s with pin := v } ∨ t = { s with repeats := v } ∨ t = { s with count := v } ∨ t = s ∨
    ∃ i, i < 1000 ∧ t = { s with pmem := Memory.store s.pmem i v } := by
  unfold hostStore at h
  split_ifs at h with hpin hrep hcnt halign hregs hgap hpmem <;> cases h
  · exact .inl rfl
  · exact .inr (.inl rfl)
  · exact .inr (.inr (.inl rfl))
  · exact .inr (.inr (.inr (.inl rfl)))
  · refine .inr (.inr (.inr (.inr ⟨_, ?_, rfl⟩)))
    simp only [offPmem_val, offPmemEnd_val] at hgap hpmem ⊢
    omega
  · exact .inr (.inr (.inr (.inl rfl)))

theorem hostStore_pin : hostStore 0x008 v s = some { s with pin := v } := rfl

theorem hostStore_repeats : hostStore 0x00C v s = some { s with repeats := v } := rfl

theorem hostStore_count : hostStore 0x010 v s = some { s with count := v } := rfl

theorem hostStore_pmem {i : Nat} (hi : i < 1000) :
    hostStore (0x1000 + 4 * i) v s = some { s with pmem := Memory.store s.pmem i v } := by
  have hidx : (0x1000 + 4 * i - 0x1000) / 4 = i := by omega
  unfold hostStore
  simp only [offPin_val, offRepeats_val, offCount_val, offRegistersEnd_val, offPmem_val,
    offPmemEnd_val, hidx]
  rw [if_neg (by omega), if_neg (by omega), if_neg (by omega), if_neg (by omega),
    if_neg (by omega), if_neg (by omega), if_pos (by omega)]

/-- A store within the capacity keeps the canonical form (R11). -/
theorem hostStore_wf {off : Nat} (h : hostStore off v s = some t)
    (hs : Memory.wf s.pmem = true) : Memory.wf t.pmem = true := by
  obtain rfl | rfl | rfl | rfl | ⟨i, hi, rfl⟩ := hostStore_cases h
  · exact hs
  · exact hs
  · exact hs
  · exact hs
  · exact Memory.store_wf _ _ _ hi hs

theorem hostTurn_wf (h : hostTurn s = .next t) (hs : Memory.wf s.pmem = true) :
    Memory.wf t.pmem = true := by
  obtain ⟨-, rfl⟩ | ⟨us, rest, -, rfl⟩ | ⟨addr, bytes, rest, w, -, rfl⟩ |
    ⟨addr, bytes, v, rest, -, ⟨-, rfl⟩ | ⟨-, off, hst⟩⟩ | ⟨rest, -, hx⟩ | ⟨rest, -, -, rfl⟩ :=
    hostTurn_next h
  · exact hs
  · exact hs
  · exact hs
  · exact hs
  · exact hostStore_wf hst hs
  · exact exec_wf hx hs
  · exact Memory.reset_wf

/-- What each word reads as after word `i` of `PMEM` has been written. -/
theorem pulseWord_store (i k : Nat) :
    pulseWord { s with host := rest, pmem := Memory.store s.pmem i v } k =
      if k = i then v else pulseWord s k := by
  by_cases hk : k = i
  · rw [if_pos hk, hk]
    exact pulseWord_written _ i v (Memory.lookup_store_same ..)
  · rw [if_neg hk, pulseWord, Memory.lookup_store_other _ _ _ _ hk]
    rfl

/-- A write that stores, at an offset other than that of `CTRL`: it takes effect unless `BUSY`
(R37). -/
theorem step_hostStore {off : Nat} (hp : s.port = none)
    (hh : s.host = .write (s.params.base + off) 4 v :: rest) (hoff : off ≠ 0)
    (hst : hostStore off v { s with host := rest } = some t) :
    step s = .next (if s.busy then { s with host := rest } else t) := by
  have hctrl : ¬(hostOffset (s.params.base + off) s = some Config.offCtrl ∧ 4 = 4 ∧
      s.busy = false) := by simp [hoff]
  have hat : hostOffset (s.params.base + off) { s with host := rest } = some off :=
    hostOffset_base off { s with host := rest }
  rw [step_turn s (fetchedCode_write s _ 4 v rest hp hh hctrl), hostTurn_write s _ 4 v rest hh,
    hostWrite, if_pos rfl, hat, Option.bind_some, hst]

end HostPort

/-! ### What the host reads (R15, R33) -/

theorem hostValue_pmem (s : State) {i : Nat} (hi : i < 1000) :
    hostValue (0x1000 + 4 * i) s = some (pulseWord s i) := by
  have hreg (off : Nat) (h : off < 0x1000) : 0x1000 + 4 * i ≠ off := by omega
  have hend : 0x1000 + 4 * i < 0x1FA0 ∧ (0x1000 + 4 * i) % 4 = 0 := by omega
  simp [hostValue, hreg, hend]

/-- The fields of `STATUS` (R15), for each of the three codes of `INITST` and all four flags. -/
theorem statusWord_fields (s : State) :
    (statusWord s).getLsbD 0 = s.busy ∧ (statusWord s).getLsbD 1 = s.done ∧
    (statusWord s).getLsbD 2 = s.err ∧ (statusWord s).getLsbD 3 = s.cfault ∧
    ((statusWord s).extractLsb' 4 2).toNat = initCode s.initst ∧
    (statusWord s).extractLsb' 6 26 = 0 := by
  unfold statusWord
  generalize s.busy = b, s.done = d, s.err = e, s.cfault = c
  cases s.initst with
  | uninit => revert b d e c; decide
  | ready => revert b d e c; decide
  | fatal => revert b d e c; decide

/-! ### What does not exist (R11, R21, R46) -/

theorem exec_cfg_fault (p : BitVec 5) (s : State) (h : ¬(2 ≤ p.toNat ∧ p.toNat ≤ 27)) :
    exec (.cfg p) s = .fault .noSuchPin := onPin_fault _ _ (by omega)

theorem exec_wr_fault (p : BitVec 5) (l : Level) (s : State)
    (h : ¬(2 ≤ p.toNat ∧ p.toNat ≤ 27)) :
    exec (.wr p l) s = .fault .noSuchPin := onPin_fault _ _ (by omega)

/-- The operations that read a word of `PMEM` stop where there is none. -/
theorem exec_noSuchPulseWord (s : State) (h : 1000 ≤ s.i) :
    exec .chkLen s = .fault .noSuchPulseWord ∧ exec .chkSum s = .fault .noSuchPulseWord ∧
    exec .engHold s = .fault .noSuchPulseWord := by
  have hx : ¬pulseWordExists s.i = true := by
    rw [pulseWordExists_iff]
    omega
  exact ⟨if_neg hx, if_neg hx, if_neg hx⟩

/-- A word above 17 bits is fetched as no pulse instruction (R46). -/
theorem fetchPulse_error (s : State) (h : 2 ^ 17 ≤ (pulseWord s s.i).toNat) :
    fetchPulse s = .error .notPulseWord := by
  have hhigh : (pulseWord s s.i).extractLsb' 17 15 ≠ 0 := by
    intro h0
    have h0' : _ = 0 := congrArg BitVec.toNat h0
    rw [BitVec.extractLsb'_toNat, Nat.shiftRight_eq_div_pow] at h0'
    have := word_toNat_lt (pulseWord s s.i)
    omega
  rw [fetchPulse, Codec.decodePulse_pulsePattern, if_neg hhigh]

/-! ### The obligations -/

/-- Settles O51: an instruction leaves `PMEM` alone, and a host write goes to an index below
1000. -/
theorem stepKeepsMemoryCanonical : Obligations.StepKeepsMemoryCanonical := by
  intro s t hs h
  obtain ⟨w, i, -, -, hx⟩ | ⟨v, rest, i, -, -, -, -, hx⟩ | ⟨i, u, -, -, -, hx, rfl⟩ | ⟨-, ht, -⟩ :=
    step_next_cases s t h
  · exact exec_wf hx hs
  · exact exec_wf hx hs
  · rw [State.spend_pmem]
    exact exec_wf hx hs
  · exact hostTurn_wf ht hs

/-- Settles O34, from the frame of every instruction. -/
theorem noInstructionWritesTheRequest : Obligations.NoInstructionWritesTheRequest := by
  intro i s t h
  have hf := exec_frame h
  exact ⟨hf.pin, hf.count, pulseWord_congr s t hf.pmem hf.epoch, hf.pmem, hf.repeats, hf.params,
    hf.host, hf.rdata, hf.port, hf.epoch⟩

/-- Settles O40, from the frame of every instruction. -/
theorem traceOnlyGrows : Obligations.TraceOnlyGrows := by
  intro i s t h
  have hf := exec_frame h
  obtain ⟨es, hes⟩ := hf.trace_grows
  have hlen := hf.trace_length
  rw [← hes, List.length_append] at hlen
  exact ⟨es, hes.symm, by omega⟩

/-- Settles O47: each write is a store at its offset, with `BUSY` = 0. -/
theorem hostWritesStoreTheRequest : Obligations.HostWritesStoreTheRequest := by
  intro s v rest hp hb
  have store {off : Nat} {t : State} (hoff : off ≠ 0)
      (hst : hostStore off v { s with host := rest } = some t)
      (hh : s.host = .write (s.params.base + off) 4 v :: rest) : step s = .next t := by
    rw [step_hostStore hp hh hoff hst, hb]
    rfl
  refine ⟨store (by decide) hostStore_pin, store (by decide) hostStore_repeats,
    store (by decide) hostStore_count, fun i hi hh => ?_⟩
  exact ⟨_, store (by omega) (hostStore_pmem hi) hh, pulseWord_store i⟩

/-- Settles O5: the port's word, the command and the phase's operation are what is fetched. -/
theorem stepRunsDecodedInstruction : Obligations.StepRunsDecodedInstruction := by
  refine ⟨fun s w i hp hd => ?_, fun s v rest i hp hh hb hd => ?_, fun s i hp hh hph hd => ?_⟩
  · rw [step_fetched s _ i (fetchedCode_port s w hp) hd, afterFetch_port s w hp]
    rfl
  · rw [step_fetched s _ i (fetchedCode_command s v rest hp hh hb) hd, afterFetch_quiet s hp, hh]
    rfl
  · have hf : fetchedCode s = some (.phase (phaseCode s.phase)) := by
      rw [fetchedCode_quiet s hp hh, phaseFetch, if_neg hph]
    rw [step_fetched s _ i hf hd, afterFetch_quiet s hp]
    cases exec i { s with host := s.host.tail } with
    | next t => rfl
    | fault f => rfl
    | refused q => rfl

/-- Settles O7: each value is the one `State.reset` is written with. -/
theorem resetStateIsIdleAndUninitialised : Obligations.ResetStateIsIdleAndUninitialised :=
  ⟨rfl, rfl, rfl, rfl, rfl, rfl, rfl, rfl, rfl, rfl, rfl, rfl, rfl, rfl, Memory.lookup_nil⟩

/-- Settles O8: with `BUSY` = 0 the reset line's step is `resetPtd`. -/
theorem resetLineRestoresResetValues : Obligations.ResetLineRestoresResetValues := by
  intro s rest hp hh
  have hstep : step s = hostReset { s with host := rest } := by
    rw [step_turn s (fetchedCode_reset s rest hp hh), hostTurn_reset s rest hh]
  rw [hstep]
  refine ⟨fun hb => if_pos hb, fun hb => ⟨resetPtd { s with host := rest }, ?_, ?_⟩⟩
  · exact if_neg (by simp [hb])
  · exact ⟨rfl, rfl, rfl, rfl, rfl, rfl, rfl, rfl, rfl, rfl, rfl, rfl, rfl, rfl, rfl, rfl,
      Memory.lookup_nil⟩

/-- Settles O19: the pin, the word or the pulse instruction is not there. -/
theorem nothingActsOnWhatDoesNotExist : Obligations.NothingActsOnWhatDoesNotExist := by
  refine ⟨fun s p l h => ⟨exec_cfg_fault p s h, exec_wr_fault p l s h⟩, fun s d h => ?_,
    exec_noSuchPulseWord, fun s hi hw => ?_⟩
  · exact ⟨onPin_fault _ _ h, onPin_fault _ _ h, onPin_fault _ _ h, onPin_fault _ _ h⟩
  · rw [exec, execEngHold, if_pos ((pulseWordExists_iff _).mpr hi), fetchPulse_error s hw]

/-- Settles O42, from the fields of the status word. -/
theorem statusHoldsTheFlags : Obligations.StatusHoldsTheFlags := by
  intro s
  obtain ⟨hbusy, hdone, herr, hcfault, hinit, hrest⟩ := statusWord_fields s
  refine ⟨rfl, hbusy, hdone, herr, hcfault, ?_, hrest⟩
  rw [hinit]
  cases s.initst with
  | uninit => rfl
  | ready => rfl
  | fatal => rfl

/-- Settles O43: no state is looked at. -/
theorem constantRegistersReadTheirValues : Obligations.ConstantRegistersReadTheirValues :=
  fun _ => rfl

/-- Settles O44: the registers by their offsets, `PMEM` by its index. -/
theorem registersReadTheirContents : Obligations.RegistersReadTheirContents := by
  refine fun s => ⟨rfl, rfl, rfl, rfl, rfl, fun hd => ⟨?_, ?_⟩, fun i hi => hostValue_pmem s hi⟩
  · exact congrArg some (if_pos hd)
  · exact congrArg some (if_pos hd)

/-- Settles O50: `IDLE` with every flag and counter 0 meets each invariant. -/
theorem invariantsHoldAtReset : Obligations.InvariantsHoldAtReset := by
  have hflags : FlagsCoherent State.reset := by simp [FlagsCoherent, State.reset]
  have hcounters : CountersBounded State.reset := by simp [CountersBounded, State.reset]
  have hclock : ClockOrdered State.reset := by simp [ClockOrdered, State.reset, stamped]
  exact ⟨Memory.reset_wf, ⟨hflags, trivial, hcounters⟩, hclock, rfl, trivial⟩

end Sys2Proof.StateLaws

/-! PROOFS. The host's accesses of 20_memory.md and the pins an instruction can reach: what a read
returns, which writes are ignored, which accesses are refused, and that an instruction changes no
pin it does not name. -/

namespace Sys2Proof.MemoryMap

open Sys2Proof.Machine Sys2Proof.StateLaws

/-! ### The pins an instruction can reach (R39) -/

section Pins

variable {s t : State} {k : Fin 26}

/-- What is done on the pin of a number spares another pin, if it does so for every pin. -/
theorem onPin_other {p : Int} {f : Fin 26 → State} (h : onPin p f = .next t)
    (hf : ∀ j, k ≠ j → (f j).pins[k] = s.pins[k]) (hk : p ≠ pinNumber k) :
    t.pins[k] = s.pins[k] := by
  obtain ⟨j, rfl, rfl⟩ := (onPin_next ..).mp h
  exact hf j fun hkj => hk (congrArg (fun j => (pinNumber j : Int)) hkj.symm)

/-- A pulse drives the request's pin alone. -/
theorem playPulse_other {l : Level} {d : Nat} (h : playPulse l d s = .next t)
    (hk : s.pin.toInt ≠ pinNumber k) : t.pins[k] = s.pins[k] := by
  refine onPin_other h (fun j hkj => ?_) hk
  rw [pulseSuccessor_pins, delayFor_pins]
  exact wrPin_other j k l s hkj

theorem execEngHold_other (h : execEngHold s = .next t) (hk : s.pin.toInt ≠ pinNumber k) :
    t.pins[k] = s.pins[k] := by
  obtain ⟨-, l, d, j, -, hj, rfl⟩ := execEngHold_next _ _ h
  exact playPulse_other ((playPulse_next ..).mpr ⟨j, hj, rfl⟩) hk

theorem scanOn_pins (x : Int) (s : State) : (scanOn x s).pins = s.pins := by
  obtain ⟨-, h⟩ | ⟨-, -, h⟩ | ⟨-, -, h⟩ := scanOn_cases x s <;> simp [h]

end Pins

/-! ### The host's reads (R31, R32) -/

section HostAccess

variable {s t : State} {addr off bytes : Nat} {v w : Word} {rest : List HostMove}

theorem step_read (hp : s.port = none) (hh : s.host = .read addr bytes :: rest) :
    step s = hostRead addr bytes { s with host := rest } := by
  rw [step_turn s (fetchedCode_read s addr bytes rest hp hh), hostTurn_read s addr bytes rest hh]

theorem hostRead_base (h : hostValue off s = some w) :
    hostRead (s.params.base + off) 4 s = .next { s with rdata := w } := by
  rw [hostRead, if_pos rfl, hostOffset_base, Option.bind_some, h]

theorem hostRead_width (h : bytes ≠ 4) : hostRead addr bytes s = .refused .badHostAccess :=
  if_neg h

/-- A read of any width is refused at an address where there is nothing to read. -/
theorem hostRead_refused (h : (hostOffset addr s).bind (hostValue · s) = none) :
    hostRead addr bytes s = .refused .badHostAccess := by
  by_cases hbytes : bytes = 4
  · rw [hostRead, if_pos hbytes, h]
  · exact hostRead_width hbytes

theorem hostRead_base_refused (h : hostValue off s = none) :
    hostRead (s.params.base + off) bytes s = .refused .badHostAccess :=
  hostRead_refused (by rw [hostOffset_base, Option.bind_some, h])

theorem hostRead_below (h : addr < s.params.base) :
    hostRead addr bytes s = .refused .badHostAccess :=
  hostRead_refused (by rw [hostOffset_below _ _ h, Option.bind_none])

/-- Misaligned, between the registers and `PMEM`, or above `PMEM`, there is nothing to read. -/
theorem hostValue_eq_none
    (h : off % 4 ≠ 0 ∨ (0x03C ≤ off ∧ off < 0x1000) ∨ 0x1FA0 ≤ off) :
    hostValue off s = none := by
  have hreg (r : Nat) (haligned : r % 4 = 0) (hr : r < 0x03C) : off ≠ r := by omega
  have hpmem : ¬(0x1000 ≤ off ∧ off < 0x1FA0 ∧ off % 4 = 0) := by omega
  simp [hostValue, hreg, -not_and, hpmem]

/-! ### The host's writes (R31, R33, R37) -/

/-- A write that starts no command is the host's turn. -/
theorem step_write (hp : s.port = none) (hh : s.host = .write addr bytes v :: rest)
    (h : ¬(hostOffset addr s = some Config.offCtrl ∧ bytes = 4 ∧ s.busy = false)) :
    step s = hostWrite addr bytes v { s with host := rest } := by
  rw [step_turn s (fetchedCode_write s addr bytes v rest hp hh h),
    hostTurn_write s addr bytes v rest hh]

theorem hostWrite_busy (hb : s.busy = true) (h : hostStore off v s = some t) :
    hostWrite (s.params.base + off) 4 v s = .next s := by
  rw [hostWrite, if_pos rfl, hostOffset_base, Option.bind_some, h, hb]
  rfl

theorem hostWrite_width (h : bytes ≠ 4) : hostWrite addr bytes v s = .refused .badHostAccess :=
  if_neg h

/-- A write of any width is refused at an address where no write has a meaning. -/
theorem hostWrite_refused (h : (hostOffset addr s).bind (hostStore · v s) = none) :
    hostWrite addr bytes v s = .refused .badHostAccess := by
  by_cases hbytes : bytes = 4
  · rw [hostWrite, if_pos hbytes, h]
  · exact hostWrite_width hbytes

theorem hostWrite_base_refused (h : hostStore off v s = none) :
    hostWrite (s.params.base + off) bytes v s = .refused .badHostAccess :=
  hostWrite_refused (by rw [hostOffset_base, Option.bind_some, h])

theorem hostWrite_below (h : addr < s.params.base) :
    hostWrite addr bytes v s = .refused .badHostAccess :=
  hostWrite_refused (by rw [hostOffset_below _ _ h, Option.bind_none])

/-- Misaligned, or between the registers and `PMEM`, no write has a meaning. -/
theorem hostStore_eq_none (h : off % 4 ≠ 0 ∨ (0x03C ≤ off ∧ off < 0x1000)) :
    hostStore off v s = none := by
  unfold hostStore
  rw [if_neg (by simp; omega), if_neg (by simp; omega), if_neg (by simp; omega)]
  by_cases haligned : off % 4 = 0
  · rw [if_neg (not_not.mpr haligned), if_neg (by simp; omega), if_pos (by simp; omega)]
  · exact if_pos haligned

/-- A register other than the three of the request stores nothing. -/
theorem hostStore_register (haligned : off % 4 = 0) (hreg : off < 0x03C)
    (hreq : off ∉ [0x008, 0x00C, 0x010]) : hostStore off v s = some s := by
  simp only [List.mem_cons, List.not_mem_nil, or_false, not_or] at hreq
  obtain ⟨hpin, hrepeats, hcount⟩ := hreq
  unfold hostStore
  rw [if_neg hpin, if_neg hrepeats, if_neg hcount, if_neg (not_not.mpr haligned), if_pos hreg]

/-- A word above `PMEM` stores nothing. -/
theorem hostStore_above {i : Nat} (hi : 1000 ≤ i) : hostStore (0x1000 + 4 * i) v s = some s := by
  unfold hostStore
  simp only [offPin_val, offRepeats_val, offCount_val, offRegistersEnd_val, offPmem_val,
    offPmemEnd_val]
  rw [if_neg (by omega), if_neg (by omega), if_neg (by omega), if_neg (by omega),
    if_neg (by omega), if_neg (by omega), if_neg (by omega)]

/-- Every offset R37 names, `CTRL` too, is one where a write has a meaning. -/
theorem hostStore_request_isSome
    (h : off ∈ [0x000, 0x008, 0x00C, 0x010] ∨ ∃ i, i < 1000 ∧ off = 0x1000 + 4 * i) :
    ∃ t, hostStore off v s = some t := by
  obtain hreg | ⟨i, hi, rfl⟩ := h
  · simp only [List.mem_cons, List.not_mem_nil, or_false] at hreg
    obtain rfl | rfl | rfl | rfl := hreg
    · exact ⟨s, hostStore_register (by decide) (by decide) (by decide)⟩
    · exact ⟨_, hostStore_pin⟩
    · exact ⟨_, hostStore_repeats⟩
    · exact ⟨_, hostStore_count⟩
  · exact ⟨_, hostStore_pmem hi⟩

theorem hostStore_readOnly
    (h : off ∈ [0x004, 0x014, 0x018, 0x01C, 0x020, 0x024, 0x028, 0x02C, 0x030, 0x034, 0x038]) :
    off ≠ 0 ∧ hostStore off v s = some s := by
  have hall : ∀ r ∈ [0x004, 0x014, 0x018, 0x01C, 0x020, 0x024, 0x028, 0x02C, 0x030, 0x034, 0x038],
      r ≠ 0 ∧ r % 4 = 0 ∧ r < 0x03C ∧ r ∉ [0x008, 0x00C, 0x010] := by decide
  obtain ⟨hctrl, haligned, hreg, hreq⟩ := hall off h
  exact ⟨hctrl, hostStore_register haligned hreg hreq⟩

/-- A `CTRL` value other than 1 and 2 is reserved (R48, R52). -/
theorem decodeCommand_reserved (h1 : v ≠ 1) (h2 : v ≠ 2) :
    decodeCommand v = .error .reservedCommand := by
  rw [decodeCommand, if_neg h1, if_neg h2]

/-! ### The accesses that are refused (R31, R33) -/

theorem step_write_refused (hp : s.port = none)
    (hh : s.host = .write (s.params.base + off) bytes v :: rest)
    (h : bytes ≠ 4 ∨ off % 4 ≠ 0 ∨ (0x03C ≤ off ∧ off < 0x1000)) :
    step s = .refused .badHostAccess := by
  rw [step_write hp hh (by simp only [hostOffset_base, Option.some.injEq, offCtrl_val]; omega)]
  obtain hbytes | hoff := h
  · exact hostWrite_width hbytes
  · exact hostWrite_base_refused (s := { s with host := rest }) (hostStore_eq_none hoff)

theorem step_read_refused (hp : s.port = none)
    (hh : s.host = .read (s.params.base + off) bytes :: rest)
    (h : bytes ≠ 4 ∨ off % 4 ≠ 0 ∨ (0x03C ≤ off ∧ off < 0x1000) ∨ 0x1FA0 ≤ off) :
    step s = .refused .badHostAccess := by
  rw [step_read hp hh]
  obtain hbytes | hoff := h
  · exact hostRead_width hbytes
  · exact hostRead_base_refused (s := { s with host := rest }) (hostValue_eq_none hoff)

theorem step_write_below (hp : s.port = none) (hh : s.host = .write addr bytes v :: rest)
    (h : addr < s.params.base) : step s = .refused .badHostAccess := by
  rw [step_write hp hh (by simp [hostOffset_below addr s h])]
  exact hostWrite_below h

theorem step_read_below (hp : s.port = none) (hh : s.host = .read addr bytes :: rest)
    (h : addr < s.params.base) : step s = .refused .badHostAccess := by
  rw [step_read hp hh]
  exact hostRead_below h

end HostAccess

/-! ### The obligations -/

/-- Settles O37: only `Cfg` and `Wr` write a pin, each the pin it is given; every other operation
is shown not to write `pins`. -/
theorem onlyTheNamedPinChanges : Obligations.OnlyTheNamedPinChanges := by
  intro i s t k h hk
  cases i with
  | tx => obtain ⟨-, rfl⟩ | ⟨-, -, rfl⟩ := launchTx_next _ _ _ h <;> simp
  | init => exact hk.elim
  | txDefault => obtain ⟨-, rfl⟩ | ⟨-, -, rfl⟩ := launchTx_next _ _ _ h <;> simp
  | holdH d => exact playPulse_other h hk
  | holdL d => exact playPulse_other h hk
  | setup => exact hk.elim
  | cfg p => exact onPin_other h (fun j => cfgPin_other j k s) (Nat.cast_injective.ne hk)
  | wr p l => exact onPin_other h (fun j => wrPin_other j k l s) (Nat.cast_injective.ne hk)
  | dly d => obtain rfl := next_inj h; simp
  | now => obtain rfl := next_inj h; simp
  | chkPin => obtain ⟨-, rfl⟩ | ⟨-, rfl⟩ := execChkPin_next _ _ h <;> simp
  | chkRep => obtain ⟨-, rfl⟩ | ⟨-, rfl⟩ := execChkRep_next _ _ h <;> simp
  | chkCnt => obtain ⟨-, rfl⟩ | ⟨-, rfl⟩ := execChkCnt_next _ _ h <;> simp
  | chkPar => obtain ⟨-, rfl⟩ | ⟨-, rfl⟩ := execChkPar_next _ _ h <;> simp
  | chkLen => obtain ⟨-, ⟨-, rfl⟩ | ⟨-, rfl⟩⟩ := execChkLen_next _ _ h <;> simp
  | chkSum => obtain ⟨-, rfl⟩ := execChkSum_next _ _ h; simp [scanOn_pins]
  | engCfg => exact onPin_other h (fun j => cfgPin_other j k s) hk
  | engStamp0 => obtain rfl := next_inj h; simp
  | engHold => exact execEngHold_other h hk
  | engBudget => obtain rfl := execEngBudget_next _ _ h; simp
  | engDeassert => exact onPin_other h (fun j => wrPin_other j k .low s) hk
  | engStamp1 => obtain ⟨-, rfl⟩ := execEngStamp1_next _ _ h; simp

/-- Settles O45: the step is the host's turn, and the turn is the read. -/
theorem hostReadsHaveNoSideEffect : Obligations.HostReadsHaveNoSideEffect := by
  intro s off rest w hp hh hw
  have hw' : hostValue off { s with host := rest } = some w := hw
  rw [step_read hp hh]
  exact hostRead_base hw'

/-- Settles O46: with `BUSY` = 1 no command is fetched, and what would be stored is dropped. -/
theorem hostWritesIgnoredWhileBusy : Obligations.HostWritesIgnoredWhileBusy := by
  intro s off v rest hp hb hh hoff
  obtain ⟨t, ht⟩ := hostStore_request_isSome (v := v) (s := { s with host := rest }) hoff
  rw [step_write hp hh (by simp [hb])]
  exact hostWrite_busy (s := { s with host := rest }) hb ht

/-- Settles O48: the store at each of these offsets is none, whatever `BUSY` is. -/
theorem readOnlyWritesIgnored : Obligations.ReadOnlyWritesIgnored := by
  intro s off v rest hp hh hoff
  have hst : off ≠ 0 ∧ hostStore off v { s with host := rest } = some { s with host := rest } := by
    obtain hreg | ⟨i, hi, rfl⟩ := hoff
    · exact hostStore_readOnly hreg
    · exact ⟨by omega, hostStore_above hi⟩
  rw [step_hostStore hp hh hst.1 hst.2, ite_self]

/-- Settles O49: the access has no offset, the offset no meaning, or the command no operation. -/
theorem meaninglessAccessesRefused : Obligations.MeaninglessAccessesRefused := by
  refine ⟨fun s off bytes v rest hp h => ⟨fun hh => step_write_refused hp hh h,
      fun hh => step_read_refused hp hh (by omega)⟩,
    fun s i rest hp hi hh => step_read_refused hp hh (by omega),
    fun s addr bytes v rest hp h => ⟨fun hh => step_write_below hp hh h,
      fun hh => step_read_below hp hh h⟩,
    fun s v rest hp hb hh h1 h2 => ?_⟩
  exact step_undecodable s _ _ (fetchedCode_command s v rest hp hh hb)
    (decodeCommand_reserved h1 h2)

end Sys2Proof.MemoryMap

/-! PROOFS. The codes of 30_encoding.md: the spec's own words are the ones the encoder writes, the
reserved codes are refused place by place, and `TX.default` is a `TX` with 4 repeats. -/

namespace Sys2Proof.Encoding

open Sys2Proof.Machine Sys2Proof.Codec

/-! ### Words the encoder writes -/

/-- Words of one format that are the codes of the instructions listed decode to them, at the codes
taken (R49, R50). `TX.default` has the word of `TX` (R55). -/
theorem map_decode_of_map_encode {α : Type} {mk : α → Code} {ws : List α}
    {is : List (Option Instr)}
    (hcodes : is.map (Option.map (encode Config.portCodes)) = ws.map fun w => some (mk w))
    (hdefault : some .txDefault ∉ is) :
    ws.map (fun w => (decode Config.portCodes (mk w)).toOption) = is := by
  induction ws generalizing is with
  | nil => exact (List.map_eq_nil_iff.mp hcodes).symm
  | cons w ws ih =>
    obtain ⟨i?, is, rfl, hhead, htail⟩ := List.map_eq_cons_iff.mp hcodes
    obtain ⟨i, rfl, hw⟩ := Option.map_eq_some_iff.mp hhead
    obtain ⟨hi, his⟩ := not_or.mp (mt List.mem_cons.mpr hdefault)
    have hback := encodedInstructionDecodesBack _ portCodes_legal i
    rw [if_neg fun h => hi (congrArg some h.symm)] at hback
    rw [List.map_cons, ih htail his, ← hw, hback]
    rfl

/-! ### Reserved codes (R52) -/

/-- A word of the pin port is reserved when its `op` is none of the five codes, whatever its other
fields hold (R49). -/
theorem decodePrimitive_of_op_notMem (k : PortCodes) (w : PortWord)
    (hop : w.extractLsb' 29 3 ∉ [k.setup, k.cfg, k.wr, k.dly, k.now]) :
    decodePrimitive k w = .error .reservedPrimitive := by
  rw [← portWord_fields w]
  exact decodePrimitive_reserved _ _ _ hop

/-- The codes taken are 0 to 4 (R49). -/
theorem notMem_portCodes_of_five_le (op : BitVec 3) (h : 5 ≤ op.toNat) :
    op ∉ [Config.portCodes.setup, Config.portCodes.cfg, Config.portCodes.wr, Config.portCodes.dly,
      Config.portCodes.now] := by
  decide +revert

/-- A phase code is refused when it names no phase, or one with no operation (R53). -/
theorem decodePhase_of_noOperation (c : BitVec 4) (h : (phaseOfCode c).bind phaseOperation = none) :
    decodePhase c = .error .noPhaseOperation := by
  rw [decodePhase, h]

/-! ### The start of a `TX` (R112) -/

section Launch

variable {s : State} (s' : State)

theorem launchTx_ready (hb : s.busy = false) (hi : s.initst = .ready) :
    launchTx s s' = .next (s'.start .vPin) := by
  rw [launchTx, if_neg (by simp [hb]), if_pos hi]

theorem launchTx_busy (hb : s.busy = true) : launchTx s s' = .next s := if_pos hb

theorem launchTx_notReady (hb : s.busy = false) (hi : s.initst ≠ .ready) :
    launchTx s s' = .refused .txNotReady := by
  rw [launchTx, if_neg (by simp [hb]), if_neg hi]

end Launch

/-! ### The obligations -/

/-- Settles O3: in each format the words are the codes of the instructions, so they decode back to
them. -/
theorem specWordsDecode : Obligations.SpecWordsDecode := by
  refine ⟨?_, ?_, ?_, ?_, ?_, ?_, ?_⟩ <;>
    exact map_decode_of_map_encode (by decide) (by decide)

/-- Settles O4, place by place: at the codes taken, `op` 5 to 7 is none of the five. -/
theorem reservedCodesRefused : Obligations.ReservedCodesRefused := by
  refine ⟨fun k w h1 h2 => MemoryMap.decodeCommand_reserved h1 h2, decodePrimitive_of_op_notMem,
    fun w h => ?_, fun k c hc => decodePhase_of_noOperation c ?_, fun k x hx => if_neg hx⟩
  · exact decodePrimitive_of_op_notMem _ w (notMem_portCodes_of_five_le _ h)
  · obtain rfl | rfl | rfl := hc <;> rfl

/-- Settles O11: `TX.default` is the start of a `TX` from the state with `REPEATS` = 4. -/
theorem txDefaultWritesFourRepeats : Obligations.TxDefaultWritesFourRepeats :=
  fun _ => ⟨launchTx_ready _, launchTx_busy _, launchTx_notReady _⟩

end Sys2Proof.Encoding

/-! PROOFS. The checker of 40_validator.md: the answer of each check, the decision list as the
conditions of a plan, and the undisturbed run of the checker into the list's verdict. -/

namespace Sys2Proof.Checker

open Sys2Proof.Machine

/-! ### The answer of each check (R61 to R66) -/

theorem exec_chkPin (s : State) :
    exec .chkPin s =
      .next (if pinLegal s.pin then { s with phase := .vRep } else raise .invalidGpio s) :=
  (apply_ite ..).symm

theorem exec_chkRep (s : State) :
    exec .chkRep s =
      .next (if repeatsLegal s.repeats then { s with phase := .vCnt }
        else raise .invalidRepeats s) :=
  (apply_ite ..).symm

theorem exec_chkCnt (s : State) :
    exec .chkCnt s =
      .next (if countLegal s.count then { s with phase := .vPar }
        else raise .invalidPulseCount s) :=
  (apply_ite ..).symm

theorem exec_chkPar (s : State) :
    exec .chkPar s =
      .next (if countEven s.count then { s with sum := 0, i := 0, phase := .vLen }
        else raise .pulseTrainOdd s) :=
  (apply_ite ..).symm

theorem exec_chkLen (s : State) (hi : s.i < 1000) :
    exec .chkLen s =
      .next (if lengthLegal (pulseWord s s.i) then { s with phase := .vSum }
        else raise .invalidPulseLength s) :=
  (if_pos ((pulseWordExists_iff _).mpr hi)).trans (apply_ite ..).symm

theorem exec_chkSum (s : State) (hi : s.i < 1000) :
    exec .chkSum s = .next (scanOn (s.sum + (pulseWord s s.i).toInt) s) :=
  if_pos ((pulseWordExists_iff _).mpr hi)

/-! ### The obligations on one check -/

/-- Settles O23, from the answer of the check. -/
theorem chkPinAcceptsTwoToTwentySeven : Obligations.ChkPinAcceptsTwoToTwentySeven :=
  ⟨fun _ => rfl, fun s => (exec_chkPin s).trans
    (congrArg _ (if_congr (pinLegal_iff s.pin) rfl rfl))⟩

/-- Settles O24, from the answer of the check. -/
theorem chkRepAcceptsOneToTwenty : Obligations.ChkRepAcceptsOneToTwenty :=
  ⟨fun _ => rfl, fun s => (exec_chkRep s).trans
    (congrArg _ (if_congr (repeatsLegal_iff s.repeats) rfl rfl))⟩

/-- Settles O25, from the answer of the check. -/
theorem chkCntAcceptsOneToThousand : Obligations.ChkCntAcceptsOneToThousand :=
  ⟨fun _ => rfl, fun s => (exec_chkCnt s).trans
    (congrArg _ (if_congr (countLegal_iff s.count) rfl rfl))⟩

/-- Settles O26, from the answer of the check. -/
theorem chkParAcceptsEvenCounts : Obligations.ChkParAcceptsEvenCounts :=
  ⟨fun _ => rfl, fun s => (exec_chkPar s).trans
    (congrArg _ (if_congr (countEven_iff s.count) rfl rfl))⟩

/-- Settles O27, from the answer of the check on a word that exists. -/
theorem chkLenAcceptsOneToHundredThousand : Obligations.ChkLenAcceptsOneToHundredThousand :=
  ⟨fun _ => rfl, fun s hi => (exec_chkLen s hi).trans
    (congrArg _ (if_congr (lengthLegal_iff (pulseWord s s.i)) rfl rfl))⟩

/-- Settles O28: with a word that exists the answer is `scanOn` of the new sum. -/
theorem chkSumBoundsEveryPrefix : Obligations.ChkSumBoundsEveryPrefix :=
  ⟨fun _ => rfl, exec_chkSum⟩

/-- Settles O35: a check writes nothing but the phase, the counters and what `raise` writes. -/
theorem checkerIssuesNoPrimitive : Obligations.CheckerIssuesNoPrimitive := by
  intro i s t hi h
  simp only [List.mem_cons, List.not_mem_nil, or_false] at hi
  obtain rfl | rfl | rfl | rfl | rfl | rfl := hi
  · obtain ⟨-, rfl⟩ | ⟨-, rfl⟩ := execChkPin_next _ _ h <;> simp
  · obtain ⟨-, rfl⟩ | ⟨-, rfl⟩ := execChkRep_next _ _ h <;> simp
  · obtain ⟨-, rfl⟩ | ⟨-, rfl⟩ := execChkCnt_next _ _ h <;> simp
  · obtain ⟨-, rfl⟩ | ⟨-, rfl⟩ := execChkPar_next _ _ h <;> simp
  · obtain ⟨-, ⟨-, rfl⟩ | ⟨-, rfl⟩⟩ := execChkLen_next _ _ h <;> simp
  · obtain ⟨-, rfl⟩ := execChkSum_next _ _ h
    obtain ⟨-, hx⟩ | ⟨-, -, hx⟩ | ⟨-, -, hx⟩ := scanOn_cases _ s <;> rw [hx] <;> simp

/-! ### The decision list (R71) -/

section DecisionList

variable {s : State}

/-- One more element is scanned when it passes both checks; a sum of legal lengths only grows, so
the sum before it is then within the limit too (R68). -/
theorem scannedTo_succ (j : Nat) :
    ScannedTo s (j + 1) ↔
      ScannedTo s j ∧ lengthLegal (pulseWord s j) = true ∧ scanSum s (j + 1) ≤ Config.sumLimit := by
  constructor
  · rintro ⟨hlen, hsum⟩
    have hj := hlen j (Nat.lt_succ_self j)
    have hpos := (lengthLegal_iff _).mp hj
    have hstep : scanSum s (j + 1) = scanSum s j + (pulseWord s j).toInt := rfl
    exact ⟨⟨fun m hm => hlen m (by omega), by omega⟩, hj, hsum⟩
  · rintro ⟨⟨hlen, -⟩, hj, hsum⟩
    refine ⟨fun m hm => ?_, hsum⟩
    obtain hm | rfl := Nat.lt_succ_iff_lt_or_eq.mp hm
    · exact hlen m hm
    · exact hj

theorem ScannedTo.of_le {j n : Nat} (hjn : j ≤ n) (h : ScannedTo s n) : ScannedTo s j :=
  Nat.decreasingInduction (fun m _ hm => ((scannedTo_succ m).mp hm).1) h hjn

/-- The scan goes on past element `j` exactly when the first `j + 1` words are scanned. -/
theorem scanVerdict_succ {n j : Nat} (hj : ScannedTo s j) :
    scanVerdict s (n + 1) j (scanSum s j) = none ↔
      ScannedTo s (j + 1) ∧ scanVerdict s n (j + 1) (scanSum s (j + 1)) = none := by
  rw [scannedTo_succ, scanVerdict, ← scanSum]
  split
  case isTrue hill =>
    exact iff_of_false nofun fun ⟨⟨_, hlen, _⟩, _⟩ => by simp [hill] at hlen
  case isFalse hlen =>
    split
    case isTrue hbig => exact iff_of_false nofun fun ⟨⟨_, _, hle⟩, _⟩ => Int.not_lt.mpr hle hbig
    case isFalse hle => exact (and_iff_right ⟨hj, by simpa using hlen, Int.not_lt.mp hle⟩).symm

/-- After `j` scanned words, the scan of `n` more gives no error exactly when they are scanned
too. -/
theorem scanVerdict_eq_none_iff (n : Nat) {j : Nat} (hj : ScannedTo s j) :
    scanVerdict s n j (scanSum s j) = none ↔ ScannedTo s (j + n) := by
  induction n generalizing j with
  | zero => exact iff_of_true rfl hj
  | succ n ih =>
    rw [scanVerdict_succ hj, ← Nat.add_assoc, Nat.add_right_comm]
    constructor
    · rintro ⟨hj', hn⟩
      exact (ih hj').mp hn
    · intro hn
      have hj' := ScannedTo.of_le (Nat.le_add_right (j + 1) n) hn
      exact ⟨hj', (ih hj').mpr hn⟩

/-- One entry of the decision list lets the next one decide exactly when its test passes. -/
theorem entry_eq_none_iff {c : Bool} {e : ErrorKind} {v : Option ErrorKind} :
    (if c = false then some e else v) = none ↔ c = true ∧ v = none := by
  cases c <;> simp

theorem verdict_eq_none_iff :
    verdict s = none ↔ ScalarsLegal s ∧ scanVerdict s (pulseCount s) 0 0 = none := by
  simp only [verdict, entry_eq_none_iff, ScalarsLegal, and_assoc]

/-- What the scan decides depends on the words alone. -/
theorem scanVerdict_congr {t : State} (h : ∀ j, pulseWord t j = pulseWord s j) (n j : Nat)
    (x : Int) : scanVerdict t n j x = scanVerdict s n j x := by
  induction n generalizing j x with
  | zero => rfl
  | succ n ih => simp only [scanVerdict, h, ih]

end DecisionList

/-- Settles O57: the scalar tests one by one, then the scan from element 0. -/
theorem verdictAcceptsExactlyLegalPlans : Obligations.VerdictAcceptsExactlyLegalPlans := by
  intro s
  have hempty : ScannedTo s 0 := ⟨by simp, by simp [scanSum]⟩
  have hscan := scanVerdict_eq_none_iff (pulseCount s) hempty
  rw [Nat.zero_add] at hscan
  rw [verdict_eq_none_iff, PlanLegal, ← hscan, scanSum]

/-! ### The run of the checker (R60, R167) -/

/-- The operations of the checker's six phases (R60). -/
def checks : List Instr := [.chkPin, .chkRep, .chkCnt, .chkPar, .chkLen, .chkSum]

/-- What every step of the checker leaves as it was: the request, the pins, the trace, `INITST`,
the parameters and the number of resets (R25, R70). -/
structure Kept (s t : State) : Prop where
  trace : t.trace = s.trace
  pins : t.pins = s.pins
  pin : t.pin = s.pin
  repeats : t.repeats = s.repeats
  count : t.count = s.count
  pmem : t.pmem = s.pmem
  initst : t.initst = s.initst
  params : t.params = s.params
  epoch : t.epoch = s.epoch

/-- The checker has ended in a verdict: the error has been raised (R140), or the scheduler is about
to run with its counters at 0 (R66). -/
def EndedIn (v : Option ErrorKind) (t : State) : Prop :=
  match v with
  | some e =>
    t.phase = .idle ∧ t.busy = false ∧ t.done = true ∧ t.err = true ∧
      t.cfault = callerFault e ∧ t.result = errCode t.params.errCodes e ∧ t.rcount = 0
  | none => t.phase = .eCfg ∧ t.i = 0 ∧ t.r = 0

/-- Within `n` steps the machine has ended in the verdict `v`. -/
def ReachesVerdict (n : Nat) (v : Option ErrorKind) (s : State) : Prop :=
  ∃ k t, k ≤ n ∧ Host.Core.run core k s = .next t ∧ Kept s t ∧ EndedIn v t

section Run

variable {s t u : State} {i : Instr} {n : Nat} {v : Option ErrorKind} {e : ErrorKind}

theorem Kept.refl (s : State) : Kept s s := ⟨rfl, rfl, rfl, rfl, rfl, rfl, rfl, rfl, rfl⟩

theorem Kept.trans (hst : Kept s t) (htu : Kept t u) : Kept s u where
  trace := htu.trace.trans hst.trace
  pins := htu.pins.trans hst.pins
  pin := htu.pin.trans hst.pin
  repeats := htu.repeats.trans hst.repeats
  count := htu.count.trans hst.count
  pmem := htu.pmem.trans hst.pmem
  initst := htu.initst.trans hst.initst
  params := htu.params.trans hst.params
  epoch := htu.epoch.trans hst.epoch

theorem kept_of_exec (hi : i ∈ checks) (h : exec i s = .next u) : Kept s u.spend := by
  have hf := StateLaws.exec_frame h
  obtain ⟨htrace, hpins, -, -, -, -, -, -, hinit⟩ := checkerIssuesNoPrimitive i s u hi h
  have hrep : u.repeats = s.repeats := hf.repeats (by rintro rfl; simp [checks] at hi)
  exact ⟨htrace, hpins, hf.pin, hrep, hf.count, hf.pmem, hinit, hf.params, hf.epoch⟩

theorem Kept.verdict_eq (h : Kept s t) : verdict t = verdict s := by
  simp only [verdict, pulseCount, h.pin, h.repeats, h.count,
    scanVerdict_congr (pulseWord_congr s t h.pmem h.epoch)]

/-- Undisturbed, a step is the operation of the phase and its own overhead (R12, R167). -/
theorem step_of_undisturbed (hu : Undisturbed s) (hi : phaseOperation s.phase = some i)
    (h : exec i s = .next u) : step s = .next u.spend := by
  obtain ⟨hport, hhost⟩ := hu
  have hphase : s.phase ≠ .idle := by intro hp; rw [hp] at hi; cases hi
  have hf : fetchedCode s = some (.phase (phaseCode s.phase)) := by
    rw [fetchedCode_quiet s hport (.inl hhost), phaseFetch, if_neg hphase]
  have hs : afterFetch s = s := by
    rw [afterFetch_quiet s hport, hhost]
    exact congrArg (fun l => { s with host := l }) hhost.symm
  rw [step_fetched s _ i hf (decode_phaseCode _ _ _ hi), hs, h]
  rfl

theorem run_succ_of_step (k : Nat) (h : step s = .next u) :
    Host.Core.run core (k + 1) s = Host.Core.run core k u := by
  simp only [Host.Core.run, show core.step s = .next u from h]

theorem EndedIn.reachesVerdict (h : EndedIn v s) : ReachesVerdict n v s :=
  ⟨0, s, Nat.zero_le n, rfl, Kept.refl s, h⟩

/-- The verdict reached from the state after a check is reached from the state before it, one step
later. -/
theorem reachesVerdict_of_check (hu : Undisturbed s) (hop : phaseOperation s.phase = some i)
    (hi : i ∈ checks) (h : exec i s = .next u) (hgo : ReachesVerdict n v u.spend) :
    ReachesVerdict (n + 1) v s := by
  obtain ⟨k, t, hk, hrun, hkept, hend⟩ := hgo
  exact ⟨k + 1, t, Nat.succ_le_succ hk,
    (run_succ_of_step k (step_of_undisturbed hu hop h)).trans hrun,
    (kept_of_exec hi h).trans hkept, hend⟩

theorem raise_endedIn : EndedIn (some e) (raise e s).spend :=
  ⟨rfl, rfl, rfl, rfl, rfl, rfl, rfl⟩

/-- A check whose test is one entry of the decision list: it raises the entry's error, or leaves the
rest of the list to the state it goes on to. -/
theorem reachesVerdict_entry {c : Bool} (hu : Undisturbed s)
    (hop : phaseOperation s.phase = some i) (hi : i ∈ checks)
    (h : exec i s = .next (if c then u else raise e s))
    (hgo : c = true → ReachesVerdict n v u.spend) :
    ReachesVerdict (n + 1) (if c = false then some e else v) s := by
  cases c with
  | false => exact reachesVerdict_of_check hu hop hi h raise_endedIn.reachesVerdict
  | true => exact reachesVerdict_of_check hu hop hi h (hgo rfl)

theorem scanOn_more {x : Int} (hx : x ≤ 2000000) (hi : (s.i : Int) + 1 < s.count.toInt) :
    scanOn x s = { s with sum := x, i := s.i + 1, phase := .vLen } :=
  (if_neg (Int.not_lt.mpr hx)).trans (if_pos hi)

theorem scanOn_last {x : Int} (hx : x ≤ 2000000) (hi : ¬((s.i : Int) + 1 < s.count.toInt)) :
    scanOn x s = { s with sum := x, i := 0, r := 0, phase := .eCfg } :=
  (if_neg (Int.not_lt.mpr hx)).trans (if_neg hi)

/-- At `V_SUM`, a new sum `x` above the limit ends the scan, and one within it leaves the rest to
the state that `scanOn x` goes on to (R66). -/
theorem reachesVerdict_vSum {x : Int} (hu : Undisturbed s) (hp : s.phase = .vSum)
    (hi : s.i < 1000) (hx : s.sum + (pulseWord s s.i).toInt = x)
    (hgo : x ≤ 2000000 → ReachesVerdict n v (scanOn x s).spend) :
    ReachesVerdict (n + 1)
      (if x > (Config.sumLimit : Int) then some .invalidTxTime else v) s := by
  subst hx
  refine reachesVerdict_of_check hu (by rw [hp]; rfl) (by decide) (exec_chkSum s hi) ?_
  split
  case isTrue hbig =>
    rw [scanOn, if_pos hbig]
    exact raise_endedIn.reachesVerdict
  case isFalse hle => exact hgo (Int.not_lt.mp hle)

/-- From `V_LEN` at element `j` with `n + 1` words left, the scan takes two steps a word and ends as
the decision list does on the words of the request, here held by `s₀` (R67). -/
theorem reachesVerdict_scan {s₀ : State} {j : Nat} {x : Int}
    (hwords : ∀ m, pulseWord s m = pulseWord s₀ m) (hu : Undisturbed s) (hp : s.phase = .vLen)
    (hi : s.i = j) (hsum : s.sum = x) (hcount : s.count.toInt = j + n + 1) (hmax : j + n < 1000) :
    ReachesVerdict (2 * (n + 1)) (scanVerdict s₀ (n + 1) j x) s := by
  induction n generalizing s j x with
  | zero =>
    subst hi hsum
    have hlast : ¬((s.i : Int) + 1 < s.count.toInt) := by omega
    rw [scanVerdict, ← hwords]
    refine reachesVerdict_entry hu (by rw [hp]; rfl) (by decide) (exec_chkLen s hmax) fun _ => ?_
    refine reachesVerdict_vSum hu rfl hmax rfl fun hle => ?_
    rw [scanOn_last hle (by exact hlast)]
    exact EndedIn.reachesVerdict ⟨rfl, rfl, rfl⟩
  | succ n ih =>
    subst hi hsum
    have hlt : s.i < 1000 := by omega
    have hmore : (s.i : Int) + 1 < s.count.toInt := by omega
    have hrest : s.count.toInt = (s.i + 1 : Nat) + n + 1 := by omega
    rw [scanVerdict, ← hwords]
    refine reachesVerdict_entry hu (by rw [hp]; rfl) (by decide) (exec_chkLen s hlt) fun _ => ?_
    refine reachesVerdict_vSum hu rfl hlt rfl fun hle => ?_
    rw [scanOn_more hle (by exact hmore)]
    exact ih (fun m => (pulseWord_congr s _ rfl rfl m).trans (hwords m)) hu rfl rfl rfl hrest
      (by omega)

/-- From `V_CNT`, with the request of `s₀`, the two checks of `COUNT` take a step each, and the
scan two for each of at most 1000 words. -/
theorem reachesVerdict_of_vCnt {s₀ : State} (hwords : ∀ m, pulseWord s m = pulseWord s₀ m)
    (hcount : s.count = s₀.count) (hu : Undisturbed s) (hp : s.phase = .vCnt) :
    ReachesVerdict (2 * min (pulseCount s₀) 1000 + 2)
      (if countLegal s₀.count = false then some .invalidPulseCount
       else if countEven s₀.count = false then some .pulseTrainOdd
       else scanVerdict s₀ (pulseCount s₀) 0 0) s := by
  rw [pulseCount, ← hcount]
  refine reachesVerdict_entry hu (by rw [hp]; rfl) (by decide) (exec_chkCnt s) fun hlegal => ?_
  refine reachesVerdict_entry hu rfl (by decide) (exec_chkPar _) fun _ => ?_
  obtain ⟨hpos, hmax⟩ := (countLegal_iff _).mp hlegal
  obtain ⟨n, hn⟩ : ∃ n : Nat, s.count.toInt = n + 1 := ⟨(s.count.toInt - 1).toNat, by omega⟩
  rw [hn, Int.toNat_natCast_add_one, min_eq_left (by omega)]
  exact reachesVerdict_scan (fun m => (pulseWord_congr s _ rfl rfl m).trans (hwords m)) hu rfl rfl
    rfl (by simp [hn]) (by omega)

/-- From `V_PIN`, the checks of `PIN` and `REPEATS` take a step each. -/
theorem reachesVerdict_of_vPin (hu : Undisturbed s) (hp : s.phase = .vPin) :
    ReachesVerdict (2 * min (pulseCount s) 1000 + 4) (verdict s) s := by
  refine reachesVerdict_entry hu (by rw [hp]; rfl) (by decide) (exec_chkPin s) fun _ => ?_
  refine reachesVerdict_entry hu rfl (by decide) (exec_chkRep _) fun _ => ?_
  exact reachesVerdict_of_vCnt (pulseWord_congr s _ rfl rfl) rfl hu rfl

end Run

/-- Settles O58: the checker reaches the verdict; without an error, the request it leaves as it was
is a plan. -/
theorem checkerReachesTheVerdict : Obligations.CheckerReachesTheVerdict := by
  intro s hu hp
  obtain ⟨k, t, hk, hrun, hkept, hend⟩ := reachesVerdict_of_vPin hu hp
  refine ⟨k, t, by omega, by omega, hrun, hkept.trace, hkept.pins, hkept.pin, hkept.repeats,
    hkept.count, hkept.pmem, hkept.initst, ?_⟩
  cases hv : verdict s with
  | some e =>
    simpa only [hv, EndedIn, hkept.params] using hend
  | none =>
    rw [hv] at hend
    obtain ⟨hphase, hi, hr⟩ := hend
    exact ⟨hphase, hi, hr, (verdictAcceptsExactlyLegalPlans t).mp (hkept.verdict_eq.trans hv)⟩

end Sys2Proof.Checker

/-! PROOFS. The scheduler's operations of 41_engine.md, one at a time: what each pulse instruction
and each engine operation answers, and their obligations. -/

namespace Sys2Proof.Engine

open Sys2Proof.Machine

/-! ### The pulse program (R79, R80, R84) -/

section Pulses

variable {s : State} {j : Fin 26}

/-- Everything playing a pulse does: `Wr`, then `Dly`, then the choice of the successor. -/
theorem playPulse_shape (hj : s.pin.toInt = pinNumber j) (l : Level) (d : Nat) :
    ∃ (l' : Level) (e : Nat) (o : List Nat) (n : Nat), e ≤ s.params.ovhStep + s.params.ovhDly ∧
      (s.pins[j].mode = .output → l' = l) ∧
      playPulse l d s = .next
        { s with pins := s.pins.set j { mode := s.pins[j].mode, level := l' },
                 trace := s.trace ++ [.wr (pinNumber j) l, .dly d],
                 tus := s.tus + (d + e), oracle := o, drawn := n,
                 i := if (s.i : Int) + 1 < s.count.toInt then s.i + 1 else s.i,
                 phase := if (s.i : Int) + 1 < s.count.toInt then s.phase else .eBudget } := by
  obtain ⟨l', e, o, n, he, hl, hw⟩ := wrPin_shape j l s
  obtain ⟨e', o', n', he', hd⟩ := delayFor_shape d (wrPin j l s)
  rw [wrPin_params] at he'
  refine ⟨l', e + e', o', n', Nat.add_le_add he he', hl, ?_⟩
  have htrace : s.trace ++ [.wr (pinNumber j) l, .dly d] =
      s.trace ++ [.wr (pinNumber j) l] ++ [.dly d] := by simp
  have htus : s.tus + (d + (e + e')) = s.tus + e + (d + e') := by omega
  rw [playPulse, hj, onPin_pinNumber, hd, hw, htrace, htus, pulseSuccessor]
  split <;> rfl

/-- `ENG.HOLD` plays a legal word at the level of its index's parity (R51, R84). -/
theorem exec_engHold (hi : s.i < 1000) (hw : lengthLegal (pulseWord s s.i) = true) :
    exec .engHold s = playPulse (pulseLevel s.i) (pulseWord s s.i).toInt.toNat s := by
  obtain ⟨d, hd, hf⟩ := fetchPulse_legal s hw
  rw [exec, execEngHold, if_pos ((pulseWordExists_iff _).mpr hi), hf, pulseLevel, ← hd]
  by_cases heven : s.i % 2 = 0
  · rw [if_pos heven, if_pos heven]
    rfl
  · rw [if_neg heven, if_neg heven]
    rfl

end Pulses

/-- Settles O20: `HOLDH d` plays a pulse at HIGH. -/
theorem holdHighDrivesHighThenHolds : Obligations.HoldHighDrivesHighThenHolds :=
  fun _ d _ hj => playPulse_shape hj .high d.toNat

/-- Settles O21: `HOLDL d` plays a pulse at LOW. -/
theorem holdLowDrivesLowThenHolds : Obligations.HoldLowDrivesLowThenHolds :=
  fun _ d _ hj => playPulse_shape hj .low d.toNat

/-- Settles O22: the word at `I` is legal, so it is played at the level of `I`'s parity. -/
theorem engHoldPlaysTheWordAtI : Obligations.EngHoldPlaysTheWordAtI := by
  intro s j hj hi hpos hmax
  rw [exec_engHold hi ((lengthLegal_iff _).mpr ⟨hpos, hmax⟩)]
  exact playPulse_shape hj (pulseLevel s.i) _

/-! ### The engine operations (R77, R78, R81 to R83) -/

section Operations

variable {s : State} {j : Fin 26}

theorem exec_engCfg (hj : s.pin.toInt = pinNumber j) :
    exec .engCfg s = .next { cfgPin j s with phase := .eStamp0 } := by
  rw [exec, execEngCfg, hj, onPin_pinNumber]

theorem exec_engDeassert (hj : s.pin.toInt = pinNumber j) :
    exec .engDeassert s = .next { wrPin j .low s with phase := .eStamp1 } := by
  rw [exec, execEngDeassert, hj, onPin_pinNumber]

/-- The two tests of `ENG.BUDGET` as one (R81, R96). -/
theorem afterPass_eq (v : Nat) (s : State) :
    afterPass v s =
      if v > s.tStart + 2000 ∨ (s.r : Int) = s.repeats.toInt then { s with phase := .eDeassert }
      else { s with i := 0, phase := .eHold } := by
  obtain ⟨hstop, h⟩ | ⟨hle, hne, h⟩ := afterPass_cases v s
  · exact h.trans (if_pos hstop).symm
  · exact h.trans (if_neg (not_or.mpr ⟨Nat.not_lt.mpr hle, hne⟩)).symm

end Operations

/-- Settles O29: `Cfg` of the request's pin, and the next phase. -/
theorem engCfgConfiguresTheRequestedPin : Obligations.EngCfgConfiguresTheRequestedPin := by
  intro s j hj
  obtain ⟨l, e, o, n, he, hl, hcfg⟩ := cfgPin_shape j s
  exact ⟨l, e, o, n, he, hl, by rw [exec_engCfg hj, hcfg]⟩

/-- Settles O30: one reading of the clock, whose answer is stored. -/
theorem engStampZeroRecordsTheStart : Obligations.EngStampZeroRecordsTheStart := by
  intro s
  obtain ⟨hlevelA, hlevelB⟩ := clockAnswer_law s
  obtain ⟨e, o, n, he, hread⟩ := readClock_shape s
  exact ⟨clockAnswer s, e, o, n, he, hlevelA, hlevelB, by rw [exec, execEngStamp0, hread]⟩

/-- Settles O31: one reading of the clock, with the pass counted, and the two tests. -/
theorem engBudgetStopsAfterTwoSecondsOrAllRepeats :
    Obligations.EngBudgetStopsAfterTwoSecondsOrAllRepeats := by
  intro s
  obtain ⟨hlevelA, hlevelB⟩ := clockAnswer_law s
  obtain ⟨e, o, n, he, hread⟩ := readClock_shape { s with r := s.r + 1 }
  refine ⟨clockAnswer s, e, o, n, he, hlevelA, hlevelB, ?_⟩
  rw [exec, execEngBudget, hread, afterPass_eq]
  rfl

/-- Settles O32: `Wr` of LOW to the request's pin, and the next phase. -/
theorem engDeassertWritesLow : Obligations.EngDeassertWritesLow := by
  intro s j hj
  obtain ⟨l, e, o, n, he, hl, hwr⟩ := wrPin_shape j .low s
  exact ⟨l, e, o, n, he, hl, by rw [exec_engDeassert hj, hwr]⟩

/-- Settles O33: one reading of the clock; the elapsed value fits a word, or it is refused. -/
theorem engStampOneReturnsTheElapsedTime : Obligations.EngStampOneReturnsTheElapsedTime := by
  refine ⟨fun s hlow hhigh => ?_, fun s hwide => ?_⟩
  · obtain ⟨e, o, n, he, hread⟩ := readClock_shape s
    refine ⟨e, o, n, he, ?_⟩
    rw [exec, execEngStamp1, hread, endTransmission, if_pos ((fitsWord_iff _).mpr ⟨hlow, hhigh⟩)]
    rfl
  · refine if_neg fun hfits => ?_
    rw [readClock_tStart, fitsWord_iff] at hfits
    omega

end Sys2Proof.Engine

/-! PROOFS. The guard of the scheduler (41_engine.md R75): each phase's operation keeps the flags,
the checks made so far and the ranges of the counters, and nothing else that a step can be disturbs
them. -/

namespace Sys2Proof.Guard

open Sys2Proof.Machine Sys2Proof.StateLaws

/-! ### States with the same request, and with the same command in flight -/

/-- The request and the contents of `PMEM` are the same (R10, R11). -/
structure SameRequest (s t : State) : Prop where
  pin : t.pin = s.pin := by simp
  repeats : t.repeats = s.repeats := by simp
  count : t.count = s.count := by simp
  pmem : t.pmem = s.pmem := by simp
  epoch : t.epoch = s.epoch := by simp

/-- The four flags and `INITST` are the same (R13, R20). -/
structure SameFlags (s t : State) : Prop where
  busy : t.busy = s.busy := by simp
  done : t.done = s.done := by simp
  err : t.err = s.err := by simp
  cfault : t.cfault = s.cfault := by simp
  initst : t.initst = s.initst := by simp

/-- The command in flight is the same, and stands where it stood. -/
structure SameCommand (s t : State) : Prop extends SameRequest s t, SameFlags s t where
  phase : t.phase = s.phase := by simp
  i : t.i = s.i := by simp
  r : t.r = s.r := by simp
  sum : t.sum = s.sum := by simp

section Same

variable {s t u : State}

theorem SameRequest.trans (hst : SameRequest s t) (htu : SameRequest t u) : SameRequest s u where
  pin := htu.pin.trans hst.pin
  repeats := htu.repeats.trans hst.repeats
  count := htu.count.trans hst.count
  pmem := htu.pmem.trans hst.pmem
  epoch := htu.epoch.trans hst.epoch

theorem sameRequest_of_exec {i : Instr} (hi : i ≠ .txDefault) (h : exec i s = .next t) :
    SameRequest s t :=
  have hf := exec_frame h
  ⟨hf.pin, hf.repeats hi, hf.count, hf.pmem, hf.epoch⟩

theorem SameRequest.pulseWord_eq (h : SameRequest s t) (n : Nat) :
    pulseWord t n = pulseWord s n := pulseWord_congr s t h.pmem h.epoch n

theorem SameRequest.pulseCount_eq (h : SameRequest s t) : pulseCount t = pulseCount s := by
  rw [pulseCount, pulseCount, h.count]

theorem SameRequest.scanSum_eq (h : SameRequest s t) (n : Nat) : scanSum t n = scanSum s n := by
  induction n with
  | zero => rfl
  | succ n ih => rw [scanSum, scanSum, ih, h.pulseWord_eq]

theorem SameRequest.scalarsLegal_iff (h : SameRequest s t) : ScalarsLegal t ↔ ScalarsLegal s := by
  rw [ScalarsLegal, ScalarsLegal, h.pin, h.repeats, h.count]

theorem SameRequest.scannedTo_iff (h : SameRequest s t) (n : Nat) :
    ScannedTo t n ↔ ScannedTo s n := by
  simp only [ScannedTo, h.pulseWord_eq, h.scanSum_eq]

theorem SameRequest.planLegal_iff (h : SameRequest s t) : PlanLegal t ↔ PlanLegal s := by
  rw [PlanLegal, PlanLegal, h.scalarsLegal_iff, h.pulseCount_eq, h.scannedTo_iff]

/-- The guard looks at the command in flight alone. -/
theorem SameCommand.checked_iff (h : SameCommand s t) : Checked t ↔ Checked s := by
  have hq := h.toSameRequest
  simp only [Checked, h.phase, h.i, h.r, h.sum, h.pin, h.repeats, h.count, hq.scalarsLegal_iff,
    hq.planLegal_iff, hq.scannedTo_iff, hq.pulseCount_eq, hq.scanSum_eq, hq.pulseWord_eq]

theorem SameCommand.guarded (h : SameCommand s t) (hg : Guarded s) : Guarded t := by
  obtain ⟨hflags, hchecked, hcounters⟩ := hg
  refine ⟨?_, h.checked_iff.mpr hchecked, ?_⟩
  · simpa only [FlagsCoherent, h.phase, h.busy, h.done, h.err, h.cfault, h.initst] using hflags
  · simpa only [CountersBounded, h.i, h.r, h.sum] using hcounters

end Same

/-! ### What a legal request gives -/

section Legal

variable {s : State}

/-- A legal `COUNT` is the number of pulses, from 1 to 1000 (R63). -/
theorem pulseCount_of_legal (h : countLegal s.count = true) :
    (pulseCount s : Int) = s.count.toInt ∧ 1 ≤ pulseCount s ∧ pulseCount s ≤ 1000 := by
  rw [countLegal_iff] at h
  rw [pulseCount]
  omega

theorem exists_pinNumber (h : pinLegal s.pin = true) :
    ∃ j : Fin 26, s.pin.toInt = pinNumber j := by
  obtain ⟨j, hj⟩ := Option.isSome_iff_exists.mp ((pinSlot_isSome _).mpr ((pinLegal_iff _).mp h))
  exact ⟨j, (pinSlot_eq_some _ _).mp hj⟩

theorem pulseCount_of_scalars (h : ScalarsLegal s) :
    (pulseCount s : Int) = s.count.toInt ∧ 1 ≤ pulseCount s ∧ pulseCount s ≤ 1000 := by
  obtain ⟨-, -, hcount, -⟩ := h
  exact pulseCount_of_legal hcount

theorem pulseCount_of_plan (h : PlanLegal s) :
    (pulseCount s : Int) = s.count.toInt ∧ 1 ≤ pulseCount s ∧ pulseCount s ≤ 1000 :=
  pulseCount_of_scalars h.1

theorem repeats_of_plan (h : PlanLegal s) : 1 ≤ s.repeats.toInt ∧ s.repeats.toInt ≤ 20 := by
  obtain ⟨⟨-, hrepeats, -, -⟩, -⟩ := h
  exact (repeatsLegal_iff _).mp hrepeats

theorem exists_pinNumber_of_plan (h : PlanLegal s) : ∃ j : Fin 26, s.pin.toInt = pinNumber j :=
  exists_pinNumber h.1.1

/-- `ENG.HOLD` on a plan plays the word at `I` (R75, R84). -/
theorem exec_engHold_of_plan (h : PlanLegal s) (hi : s.i < pulseCount s) :
    exec .engHold s = playPulse (pulseLevel s.i) (pulseWord s s.i).toInt.toNat s := by
  obtain ⟨-, -, hmax⟩ := pulseCount_of_plan h
  obtain ⟨-, hlen, -⟩ := h
  exact Engine.exec_engHold (by omega) (hlen _ hi)

end Legal

/-! ### What `ENG.HOLD` and `ENG.BUDGET` do to the counters and the pins -/

section Scheduler

variable {s u : State}

/-- `ENG.HOLD` on a plan writes the level of `I`'s parity to the request's pin, and the pass goes on
or has ended (R84). -/
theorem engHold_next (hplan : PlanLegal s) (hi : s.i < pulseCount s)
    (h : exec .engHold s = .next u) :
    ∃ j : Fin 26, s.pin.toInt = pinNumber j ∧ u.pins = (wrPin j (pulseLevel s.i) s).pins ∧
      u.r = s.r ∧ u.sum = s.sum ∧
      ((s.i + 1 < pulseCount s ∧ u.phase = s.phase ∧ u.i = s.i + 1) ∨
       (s.i + 1 = pulseCount s ∧ u.phase = .eBudget ∧ u.i = s.i)) := by
  obtain ⟨hcount, -, -⟩ := pulseCount_of_plan hplan
  rw [exec_engHold_of_plan hplan hi] at h
  obtain ⟨j, hj, rfl⟩ := (playPulse_next ..).mp h
  refine ⟨j, hj, by simp, by simp, by simp, ?_⟩
  obtain ⟨hmore, hx⟩ | ⟨hlast, hx⟩ := pulseSuccessor_cases
    (delayFor (pulseWord s s.i).toInt.toNat (wrPin j (pulseLevel s.i) s))
  · simp only [delayFor_i, wrPin_i, delayFor_count, wrPin_count] at hmore
    exact .inl ⟨by omega, by simp [hx], by simp [hx]⟩
  · simp only [delayFor_i, wrPin_i, delayFor_count, wrPin_count] at hlast
    exact .inr ⟨by omega, by simp [hx], by simp [hx]⟩

/-- `ENG.BUDGET` counts the pass, and goes on to another only below `REPEATS` (R81). -/
theorem engBudget_next (h : exec .engBudget s = .next u) :
    u.pins = s.pins ∧ u.r = s.r + 1 ∧ u.sum = s.sum ∧
    ((u.phase = .eDeassert ∧ u.i = s.i) ∨
     (((s.r + 1 : Nat) : Int) ≠ s.repeats.toInt ∧ u.phase = .eHold ∧ u.i = 0)) := by
  obtain rfl := execEngBudget_next _ _ h
  refine ⟨by simp, by simp, by simp, ?_⟩
  rw [Engine.afterPass_eq]
  split
  case isTrue => exact .inl (by simp)
  case isFalse hgo =>
    refine .inr ⟨fun hr => hgo (.inr ?_), by simp, by simp⟩
    simpa using hr

end Scheduler

/-! ### Each phase's operation keeps the guard -/

section Phases

variable {s u : State} {p : Phase} {i : Instr}

/-- The phases that a phase's operation goes on to within its command, where the command does not
end (R60, R76). -/
def successors : Phase → List Phase
  | .idle | .iSetup | .eStamp1 => []
  | .vPin => [.vRep]
  | .vRep => [.vCnt]
  | .vCnt => [.vPar]
  | .vPar => [.vLen]
  | .vLen => [.vSum]
  | .vSum => [.vLen, .eCfg]
  | .eCfg => [.eStamp0]
  | .eStamp0 => [.eHold]
  | .eHold => [.eHold, .eBudget]
  | .eBudget => [.eHold, .eDeassert]
  | .eDeassert => [.eStamp1]

theorem idle_notMem_successors (p : Phase) : .idle ∉ successors p := by
  cases p <;> decide

/-- What a phase's operation, but for `INIT`, does to the flags: it ends the command, or goes on in
it with the flags as they are. -/
theorem exec_ends_or_goes_on (hp : s.phase = p) (hop : phaseOperation p = some i)
    (hinit : p ≠ .iSetup) (h : exec i s = .next u) :
    (u.phase = .idle ∧ u.busy = false ∧ u.done = true ∧ (u.cfault = true → u.err = true)) ∨
    (u.phase ∈ successors p ∧ SameFlags s u) := by
  cases p <;> cases hop
  case iSetup => exact absurd rfl hinit
  case vPin =>
    obtain ⟨-, rfl⟩ | ⟨-, rfl⟩ := execChkPin_next _ _ h
    · exact .inr ⟨by simp [successors], {}⟩
    · exact .inl (by simp)
  case vRep =>
    obtain ⟨-, rfl⟩ | ⟨-, rfl⟩ := execChkRep_next _ _ h
    · exact .inr ⟨by simp [successors], {}⟩
    · exact .inl (by simp)
  case vCnt =>
    obtain ⟨-, rfl⟩ | ⟨-, rfl⟩ := execChkCnt_next _ _ h
    · exact .inr ⟨by simp [successors], {}⟩
    · exact .inl (by simp)
  case vPar =>
    obtain ⟨-, rfl⟩ | ⟨-, rfl⟩ := execChkPar_next _ _ h
    · exact .inr ⟨by simp [successors], {}⟩
    · exact .inl (by simp)
  case vLen =>
    obtain ⟨-, ⟨-, rfl⟩ | ⟨-, rfl⟩⟩ := execChkLen_next _ _ h
    · exact .inr ⟨by simp [successors], {}⟩
    · exact .inl (by simp)
  case vSum =>
    obtain ⟨-, rfl⟩ := execChkSum_next _ _ h
    obtain ⟨-, hx⟩ | ⟨-, -, hx⟩ | ⟨-, -, hx⟩ := scanOn_cases (s.sum + (pulseWord s s.i).toInt) s <;>
      rw [hx]
    · exact .inl (by simp)
    · exact .inr ⟨by simp [successors], {}⟩
    · exact .inr ⟨by simp [successors], {}⟩
  case eCfg => obtain ⟨j, -, rfl⟩ := execEngCfg_next _ _ h; exact .inr ⟨by simp [successors], {}⟩
  case eStamp0 => obtain rfl := next_inj h; exact .inr ⟨by simp [successors], {}⟩
  case eHold =>
    obtain ⟨-, l, d, j, -, -, rfl⟩ := execEngHold_next _ _ h
    obtain ⟨-, hx⟩ | ⟨-, hx⟩ := pulseSuccessor_cases (delayFor d.toNat (wrPin j l s)) <;>
      exact .inr ⟨by simp [successors, hx, hp], {}⟩
  case eBudget =>
    obtain rfl := execEngBudget_next _ _ h
    refine .inr ⟨?_, {}⟩
    rw [Engine.afterPass_eq]
    split <;> simp [successors]
  case eDeassert =>
    obtain ⟨j, -, rfl⟩ := execEngDeassert_next _ _ h
    exact .inr ⟨by simp [successors], {}⟩
  case eStamp1 => obtain ⟨-, rfl⟩ := execEngStamp1_next _ _ h; exact .inl (by simp)

theorem flagsCoherent_of_ended (hphase : u.phase = .idle) (hbusy : u.busy = false)
    (hdone : u.done = true) (hfault : u.cfault = true → u.err = true) : FlagsCoherent u := by
  simpa [FlagsCoherent, hphase, hbusy, hdone] using hfault

theorem exec_flagsCoherent (hf : FlagsCoherent s) (hp : s.phase = p)
    (hop : phaseOperation p = some i) (h : exec i s = .next u) : FlagsCoherent u := by
  obtain ⟨hbusy, hrun, hcf, herr, hready⟩ := hf
  have hidle : s.phase ≠ .idle := by rintro hq; rw [← hp, hq] at hop; cases hop
  by_cases hinit : p = .iSetup
  case pos =>
    subst hinit
    cases hop
    obtain ⟨-, -, rfl⟩ | ⟨-, hne, -⟩ | ⟨hb, -⟩ := execInit_next _ _ h
    · obtain ⟨-, hx⟩ | ⟨-, hx⟩ | ⟨-, hx⟩ := initStep_cases s <;>
        exact flagsCoherent_of_ended (by simp [hx]) (by simp [hx]) (by simp [hx]) (by simp [hx])
    · exact absurd hp hne
    · simp [hbusy.mpr hidle] at hb
  case neg =>
    obtain ⟨hphase, hb, hd, hfault⟩ | ⟨hnext, hsame⟩ := exec_ends_or_goes_on hp hop hinit h
    · exact flagsCoherent_of_ended hphase hb hd hfault
    · have hphase : u.phase ≠ .idle := fun hq => idle_notMem_successors p (hq ▸ hnext)
      have hready' := hready hidle (by rw [hp]; exact hinit)
      rw [FlagsCoherent, hsame.busy, hsame.done, hsame.err, hsame.cfault, hsame.initst]
      exact ⟨iff_of_true (hbusy.mpr hidle) hphase, hrun, hcf, herr, fun _ _ => hready'⟩

theorem checked_eHold (hp : s.phase = .eHold) :
    Checked s ↔ PlanLegal s ∧ s.i < pulseCount s ∧ (s.r : Int) < s.repeats.toInt := by
  rw [Checked, hp]

theorem checked_eBudget (hp : s.phase = .eBudget) :
    Checked s ↔ PlanLegal s ∧ (s.r : Int) < s.repeats.toInt := by
  rw [Checked, hp]

theorem checked_eDeassert (hp : s.phase = .eDeassert) :
    Checked s ↔ PlanLegal s ∧ 1 ≤ s.r ∧ (s.r : Int) ≤ s.repeats.toInt := by
  rw [Checked, hp]

theorem checked_eStamp1 (hp : s.phase = .eStamp1) :
    Checked s ↔ PlanLegal s ∧ 1 ≤ s.r ∧ (s.r : Int) ≤ s.repeats.toInt := by
  rw [Checked, hp]

/-- The scan goes on from element `I`, with the new sum, only to a phase whose checks have been made
(R67, R68). -/
theorem scanOn_checked (hscalars : ScalarsLegal s) (hscan : ScannedTo s s.i)
    (hi : s.i < pulseCount s) (hlen : lengthLegal (pulseWord s s.i) = true) :
    Checked (scanOn (scanSum s (s.i + 1)) s) := by
  obtain ⟨hcount, -, -⟩ := pulseCount_of_scalars hscalars
  have hnext (hle : scanSum s (s.i + 1) ≤ 2000000) : ScannedTo s (s.i + 1) :=
    (Checker.scannedTo_succ s.i).mpr ⟨hscan, hlen, hle⟩
  obtain ⟨-, hx⟩ | ⟨hle, hmore, hx⟩ | ⟨hle, hlast, hx⟩ := scanOn_cases (scanSum s (s.i + 1)) s <;>
    rw [hx]
  · exact trivial
  · have hsame : SameRequest s
        { s with sum := scanSum s (s.i + 1), i := s.i + 1, phase := .vLen } := {}
    have hi' : s.i + 1 < pulseCount s := by omega
    exact ⟨hscalars, (hsame.scannedTo_iff _).mpr (hnext hle), hi', (hsame.scanSum_eq _).symm⟩
  · have hall := hnext hle
    rw [show s.i + 1 = pulseCount s by omega] at hall
    exact (SameRequest.planLegal_iff {}).mpr ⟨hscalars, hall⟩

/-- The new sum is kept even where it exceeds the limit; then by less than one pulse (R72). -/
theorem scanOn_countersBounded {x : Int} (hb : CountersBounded s) (hi : s.i + 1 ≤ 1000)
    (hx : 0 ≤ x) (hmax : x ≤ (Config.sumLimit + Config.maxPulseLength : Nat)) :
    CountersBounded (scanOn x s) := by
  obtain ⟨hi', hr, -, -⟩ := hb
  obtain ⟨-, h⟩ | ⟨-, -, h⟩ | ⟨-, -, h⟩ := scanOn_cases x s <;> rw [h]
  · exact ⟨hi', hr, hx, hmax⟩
  · exact ⟨hi, hr, hx, hmax⟩
  · exact ⟨Nat.zero_le _, Nat.zero_le _, hx, hmax⟩

/-- `ENG.HOLD` goes on in the pass, or to the budget check with the pass not yet counted. -/
theorem engHold_checked (hp : s.phase = .eHold) (hc : Checked s) (h : exec .engHold s = .next u) :
    Checked u := by
  have hsame : SameRequest s u := sameRequest_of_exec (by decide) h
  obtain ⟨hplan, hi, hr⟩ := (checked_eHold hp).mp hc
  obtain ⟨j, -, -, hr', -, ⟨hmore, hphase, hi'⟩ | ⟨-, hphase, -⟩⟩ := engHold_next hplan hi h
  · rw [checked_eHold (hphase.trans hp), hsame.planLegal_iff, hsame.pulseCount_eq, hsame.repeats,
      hi', hr']
    exact ⟨hplan, hmore, hr⟩
  · rw [checked_eBudget hphase, hsame.planLegal_iff, hsame.repeats, hr']
    exact ⟨hplan, hr⟩

/-- `ENG.BUDGET` starts another pass only below `REPEATS`. -/
theorem engBudget_checked (hp : s.phase = .eBudget) (hc : Checked s)
    (h : exec .engBudget s = .next u) : Checked u := by
  have hsame : SameRequest s u := sameRequest_of_exec (by decide) h
  obtain ⟨hplan, hr⟩ := (checked_eBudget hp).mp hc
  obtain ⟨-, hcount, -⟩ := pulseCount_of_plan hplan
  obtain ⟨-, hr', -, ⟨hphase, -⟩ | ⟨hne, hphase, hi'⟩⟩ := engBudget_next h
  · rw [checked_eDeassert hphase, hsame.planLegal_iff, hsame.repeats, hr']
    exact ⟨hplan, by omega, by omega⟩
  · rw [checked_eHold hphase, hsame.planLegal_iff, hsame.pulseCount_eq, hsame.repeats, hi', hr']
    exact ⟨hplan, hcount, by omega⟩

/-- Every phase is entered with what its predecessor has checked (R68, R75). -/
theorem exec_checked (hc : Checked s) (hp : s.phase = p) (hop : phaseOperation p = some i)
    (h : exec i s = .next u) : Checked u := by
  have hsame : SameRequest s u := by
    refine sameRequest_of_exec ?_ h
    rintro rfl
    cases p <;> cases hop
  have hplan := hsame.planLegal_iff
  have hchecked := hc
  cases p <;> cases hop <;> simp only [Checked, hp] at hc
  case iSetup =>
    obtain ⟨-, -, rfl⟩ | ⟨-, hne, -⟩ | ⟨-, rfl⟩ := execInit_next _ _ h
    · obtain ⟨-, hx⟩ | ⟨-, hx⟩ | ⟨-, hx⟩ := initStep_cases s <;> rw [hx] <;> exact trivial
    · exact absurd hp hne
    · exact trivial
  case vPin =>
    obtain ⟨hpin, rfl⟩ | ⟨-, rfl⟩ := execChkPin_next _ _ h
    · exact hpin
    · exact trivial
  case vRep =>
    obtain ⟨hrep, rfl⟩ | ⟨-, rfl⟩ := execChkRep_next _ _ h
    · exact ⟨hc, hrep⟩
    · exact trivial
  case vCnt =>
    obtain ⟨hcount, rfl⟩ | ⟨-, rfl⟩ := execChkCnt_next _ _ h
    · exact ⟨hc.1, hc.2, hcount⟩
    · exact trivial
  case vPar =>
    obtain ⟨heven, rfl⟩ | ⟨-, rfl⟩ := execChkPar_next _ _ h
    · obtain ⟨hpin, hrep, hcount⟩ := hc
      obtain ⟨-, hpos, -⟩ := pulseCount_of_legal hcount
      exact ⟨⟨hpin, hrep, hcount, heven⟩, ⟨by simp, by simp [scanSum]⟩, hpos, rfl⟩
    · exact trivial
  case vLen =>
    obtain ⟨-, ⟨hlen, rfl⟩ | ⟨-, rfl⟩⟩ := execChkLen_next _ _ h
    · obtain ⟨hscalars, hscan, hi, hsum⟩ := hc
      exact ⟨hscalars, (hsame.scannedTo_iff _).mpr hscan, hi,
        hsum.trans (hsame.scanSum_eq _).symm, hlen⟩
    · exact trivial
  case vSum =>
    obtain ⟨hscalars, hscan, hi, hsum, hlen⟩ := hc
    obtain ⟨-, rfl⟩ := execChkSum_next _ _ h
    rw [hsum]
    exact scanOn_checked hscalars hscan hi hlen
  case eCfg =>
    obtain ⟨j, -, rfl⟩ := execEngCfg_next _ _ h
    exact hplan.mpr hc
  case eStamp0 =>
    obtain ⟨-, hcount, -⟩ := pulseCount_of_plan hc
    have hrep := repeats_of_plan hc
    obtain rfl := next_inj h
    rw [checked_eHold rfl, hplan, hsame.pulseCount_eq, hsame.repeats]
    exact ⟨hc, hcount, by simp; omega⟩
  case eHold => exact engHold_checked hp hchecked h
  case eBudget => exact engBudget_checked hp hchecked h
  case eDeassert =>
    obtain ⟨j, -, rfl⟩ := execEngDeassert_next _ _ h
    rw [checked_eStamp1 rfl, hplan, hsame.repeats]
    simpa using hc
  case eStamp1 => obtain ⟨-, rfl⟩ := execEngStamp1_next _ _ h; exact trivial

/-- Where the counters move, what has been checked bounds them (R12, R72). -/
theorem exec_countersBounded (hc : Checked s) (hb : CountersBounded s) (hp : s.phase = p)
    (hop : phaseOperation p = some i) (h : exec i s = .next u) : CountersBounded u := by
  have ⟨hi, hr, hsum, hsum'⟩ := hb
  cases p <;> cases hop <;> simp only [Checked, hp] at hc
  case iSetup =>
    obtain ⟨-, -, rfl⟩ | ⟨-, -, rfl⟩ | ⟨-, rfl⟩ := execInit_next _ _ h
    · obtain ⟨-, hx⟩ | ⟨-, hx⟩ | ⟨-, hx⟩ := initStep_cases s <;>
        rw [hx] <;> exact hb
    · exact hb
    · exact hb
  case vPin =>
    obtain ⟨-, rfl⟩ | ⟨-, rfl⟩ := execChkPin_next _ _ h <;> exact hb
  case vRep =>
    obtain ⟨-, rfl⟩ | ⟨-, rfl⟩ := execChkRep_next _ _ h <;> exact hb
  case vCnt =>
    obtain ⟨-, rfl⟩ | ⟨-, rfl⟩ := execChkCnt_next _ _ h <;> exact hb
  case vPar =>
    obtain ⟨-, rfl⟩ | ⟨-, rfl⟩ := execChkPar_next _ _ h
    · exact ⟨Nat.zero_le _, hr, le_rfl, by simp⟩
    · exact hb
  case vLen =>
    obtain ⟨-, ⟨-, rfl⟩ | ⟨-, rfl⟩⟩ := execChkLen_next _ _ h <;> exact hb
  case vSum =>
    obtain ⟨hscalars, ⟨-, hle⟩, hlt, heq, hlen⟩ := hc
    obtain ⟨-, -, hmax⟩ := pulseCount_of_scalars hscalars
    obtain ⟨hpos, hword⟩ := (lengthLegal_iff _).mp hlen
    obtain ⟨-, rfl⟩ := execChkSum_next _ _ h
    refine scanOn_countersBounded hb (by omega) (by omega) ?_
    simp only [sumLimit_val, maxPulseLength_val] at hle ⊢
    omega
  case eCfg =>
    obtain ⟨j, -, rfl⟩ := execEngCfg_next _ _ h
    simpa [CountersBounded] using hb
  case eStamp0 =>
    obtain rfl := next_inj h
    exact ⟨Nat.zero_le _, Nat.zero_le _, hsum, hsum'⟩
  case eHold =>
    obtain ⟨hlegal, hlt, -⟩ := hc
    obtain ⟨-, -, hmax⟩ := pulseCount_of_plan hlegal
    obtain ⟨j, -, -, hr', hs', ⟨hmore, -, hi'⟩ | ⟨-, -, hi'⟩⟩ := engHold_next hlegal hlt h <;>
      rw [CountersBounded, hr', hs', hi']
    · exact ⟨hmore.le.trans hmax, hr, hsum, hsum'⟩
    · exact hb
  case eBudget =>
    obtain ⟨hlegal, hlt⟩ := hc
    have hmax := repeats_of_plan hlegal
    have hr20 : s.r + 1 ≤ 20 := by omega
    obtain ⟨-, hr', hs', ⟨-, hi'⟩ | ⟨-, -, hi'⟩⟩ := engBudget_next h <;>
      rw [CountersBounded, hr', hs', hi']
    · exact ⟨hi, hr20, hsum, hsum'⟩
    · exact ⟨Nat.zero_le _, hr20, hsum, hsum'⟩
  case eDeassert =>
    obtain ⟨j, -, rfl⟩ := execEngDeassert_next _ _ h
    simpa [CountersBounded] using hb
  case eStamp1 =>
    obtain ⟨-, rfl⟩ := execEngStamp1_next _ _ h
    simpa [CountersBounded] using hb

theorem exec_guarded (hg : Guarded s) (hop : phaseOperation s.phase = some i)
    (h : exec i s = .next u) : Guarded u :=
  have ⟨hf, hc, hb⟩ := hg
  ⟨exec_flagsCoherent hf rfl hop h, exec_checked hc rfl hop h, exec_countersBounded hc hb rfl hop h⟩

end Phases

/-! ### The pin port, the commands and the host's turn -/

section Others

variable {s t : State} {i : Instr}

/-- A word of the pin port is one of the five primitives (R49). -/
theorem decodePrimitive_cases {k : PortCodes} {w : PortWord} (h : decodePrimitive k w = .ok i) :
    i = .setup ∨ (∃ p, i = .cfg p) ∨ (∃ p l, i = .wr p l) ∨ (∃ d, i = .dly d) ∨ i = .now := by
  unfold decodePrimitive at h
  dsimp only at h
  split_ifs at h <;> cases h
  · exact .inl rfl
  · exact .inr (.inl ⟨_, rfl⟩)
  · exact .inr (.inr (.inl ⟨_, _, rfl⟩))
  · exact .inr (.inr (.inr (.inl ⟨_, rfl⟩)))
  · exact .inr (.inr (.inr (.inr rfl)))

/-- A primitive leaves the command in flight where it stands. -/
theorem sameCommand_of_primitive {k : PortCodes} {w : PortWord} (hd : decodePrimitive k w = .ok i)
    (h : exec i s = .next t) : SameCommand s t := by
  obtain rfl | ⟨p, rfl⟩ | ⟨p, l, rfl⟩ | ⟨d, rfl⟩ | rfl := decodePrimitive_cases hd
  · obtain rfl := next_inj h; exact {}
  · obtain ⟨j, -, rfl⟩ := (onPin_next ..).mp h; exact {}
  · obtain ⟨j, -, rfl⟩ := (onPin_next ..).mp h; exact {}
  · obtain rfl := next_inj h; exact {}
  · obtain rfl := next_inj h; exact {}

theorem decodeCommand_cases {v : Word} (h : decodeCommand v = .ok i) : i = .tx ∨ i = .init := by
  unfold decodeCommand at h
  split_ifs at h <;> cases h
  · exact .inl rfl
  · exact .inr rfl

/-- With `BUSY` = 0 the phase is `IDLE` (R13). -/
theorem idle_of_not_busy (hf : FlagsCoherent s) (hb : s.busy = false) : s.phase = .idle := by
  by_contra hp
  simp [hf.1.mpr hp] at hb

theorem guarded_of_idle (hf : FlagsCoherent s) (hp : s.phase = .idle) (hb : CountersBounded s) :
    Guarded s :=
  ⟨hf, by rw [Checked, hp]; exact trivial, hb⟩

theorem guarded_start_iSetup (hb : CountersBounded s) : Guarded (s.start .iSetup) :=
  ⟨by simp [FlagsCoherent], trivial, hb⟩

theorem guarded_start_vPin (hb : CountersBounded s) (hr : s.initst = .ready) :
    Guarded (s.start .vPin) :=
  ⟨by simp [FlagsCoherent, hr], trivial, hb⟩

/-- The start of a command, or one that is ignored (R110, R112, R113). -/
theorem command_guarded {v : Word} (hg : Guarded s) (hb : s.busy = false)
    (hd : decodeCommand v = .ok i) (h : exec i s = .next t) : Guarded t := by
  have ⟨_, _, hcounters⟩ := hg
  obtain rfl | rfl := decodeCommand_cases hd
  · obtain ⟨-, rfl⟩ | ⟨-, hr, rfl⟩ := launchTx_next _ _ _ h
    · exact hg
    · exact guarded_start_vPin hcounters hr
  · obtain ⟨hb', -, -⟩ | ⟨hb', -, -⟩ | ⟨-, rfl⟩ := execInit_next _ _ h
    · simp [hb] at hb'
    · simp [hb] at hb'
    · exact guarded_start_iSetup hcounters

/-- A host write that stores changes the request alone (R33). -/
theorem hostStore_request {off : Nat} {v : Word} (h : hostStore off v s = some t) :
    ∃ p r c m, t = { s with pin := p, repeats := r, count := c, pmem := m } := by
  obtain rfl | rfl | rfl | rfl | ⟨n, -, rfl⟩ := hostStore_cases h <;> exact ⟨_, _, _, _, rfl⟩

/-- The host stores and resets only while the PTD is `IDLE`; its other moves leave the command in
flight where it stands, or start one (R37, R55, R156). -/
theorem hostTurn_guarded (hg : Guarded s) (h : hostTurn s = .next t) : Guarded t := by
  have ⟨hf, _, hb⟩ := hg
  obtain ⟨-, rfl⟩ | ⟨us, rest, -, rfl⟩ | ⟨addr, bytes, rest, w, -, rfl⟩ |
    ⟨addr, bytes, v, rest, -, ⟨-, rfl⟩ | ⟨hbusy, off, hst⟩⟩ | ⟨rest, -, hx⟩ | ⟨rest, -, -, rfl⟩ :=
    hostTurn_next h
  · exact SameCommand.guarded {} hg
  · exact SameCommand.guarded {} hg
  · exact SameCommand.guarded {} hg
  · exact SameCommand.guarded {} hg
  · obtain ⟨p, r, c, m, rfl⟩ := hostStore_request hst
    exact guarded_of_idle hf (idle_of_not_busy hf hbusy) hb
  · obtain ⟨-, rfl⟩ | ⟨-, hr, rfl⟩ := launchTx_next _ _ _ hx
    · exact SameCommand.guarded {} hg
    · exact guarded_start_vPin hb hr
  · exact guarded_of_idle (by simp [FlagsCoherent, resetPtd]) rfl
      (by simp [CountersBounded, resetPtd])

end Others

/-- Settles O52: the phase's operation, a command's start and the host's moves keep the guard, and
a primitive does not touch what it speaks of. -/
theorem stepKeepsSchedulerGuarded : Obligations.StepKeepsSchedulerGuarded := by
  intro s t hg h
  have hport : Guarded { s with port := none } := SameCommand.guarded {} hg
  have hmoved (l : List HostMove) : Guarded { s with host := l } := SameCommand.guarded {} hg
  obtain ⟨w, i, -, hd, hx⟩ | ⟨v, rest, i, -, -, hb, hd, hx⟩ | ⟨i, u, -, -, hop, hx, rfl⟩ |
    ⟨-, ht, -⟩ := step_next_cases s t h
  · exact (sameCommand_of_primitive hd hx).guarded hport
  · exact command_guarded (hmoved rest) hb hd hx
  · exact SameCommand.guarded {} (exec_guarded (hmoved s.host.tail) hop hx)
  · exact hostTurn_guarded hg ht

end Sys2Proof.Guard

/-! PROOFS. What the guard gives (41_engine.md R75, R80, R91): no step faults, and the request's pin
is an output through the transmission and LOW after every pass. -/

namespace Sys2Proof.Guard

open Sys2Proof.Machine Sys2Proof.StateLaws

/-! ### No fault (R75) -/

section Faults

variable {s : State} {i : Instr} {f : Fault}

theorem launchTx_ne_fault (s' : State) : launchTx s s' ≠ .fault f := by
  unfold launchTx
  split_ifs <;> nofun

theorem execInit_ne_fault : execInit s ≠ .fault f := by
  unfold execInit
  split_ifs <;> nofun

/-- A read, a write, the reset line and the passing of time are refused or answered. -/
theorem hostTurn_ne_fault : hostTurn s ≠ .fault f := by
  unfold hostTurn
  split
  · nofun
  · nofun
  · unfold hostRead
    split <;> [split; skip] <;> nofun
  · unfold hostWrite
    split <;> [split; skip] <;> nofun
  · exact launchTx_ne_fault _
  · unfold hostReset
    split <;> nofun

/-- With no word on the pin port, the fetch gives a command or the operation of the phase. -/
theorem fetchedCode_cases {c : Code} (hport : s.port = none) (h : fetchedCode s = some c) :
    (∃ v, c = .command v) ∨ (s.phase ≠ .idle ∧ c = .phase (phaseCode s.phase)) := by
  have hphase (h : phaseFetch s = some c) : s.phase ≠ .idle ∧ c = .phase (phaseCode s.phase) := by
    unfold phaseFetch at h
    split at h
    case isTrue => cases h
    case isFalse hp => exact ⟨hp, (Option.some.inj h).symm⟩
  unfold fetchedCode at h
  rw [hport] at h
  dsimp only at h
  split at h
  · exact .inr (hphase h)
  · exact .inr (hphase h)
  · split at h
    · exact .inl ⟨_, (Option.some.inj h).symm⟩
    · cases h
  · cases h
  · cases h
  · cases h

theorem aroundExec_fault {c : Code} {a : Answer} (h : aroundExec c a = .fault f) :
    a = .fault f := by
  unfold aroundExec at h
  split at h
  · cases h
  · exact h

theorem exists_phaseOperation (h : s.phase ≠ .idle) : ∃ i, phaseOperation s.phase = some i := by
  cases hp : s.phase with
  | idle => exact absurd hp h
  | _ => exact ⟨_, rfl⟩

/-- With no word on the pin port, only the operation of the phase can fault. -/
theorem step_fault (hport : s.port = none) (h : step s = .fault f) :
    ∃ i, phaseOperation s.phase = some i ∧ exec i { s with host := s.host.tail } = .fault f := by
  cases hfetch : fetchedCode s with
  | none =>
    rw [step_turn s hfetch] at h
    exact absurd h hostTurn_ne_fault
  | some c =>
    cases hd : decode s.params.portCodes c with
    | error e => rw [step_undecodable s c e hfetch hd] at h; cases h
    | ok i =>
      rw [step_fetched s c i hfetch hd, afterFetch_quiet s hport] at h
      have hx := aroundExec_fault h
      obtain ⟨v, rfl⟩ | ⟨hidle, rfl⟩ := fetchedCode_cases hport hfetch
      · obtain rfl | rfl := decodeCommand_cases hd
        · exact absurd hx (launchTx_ne_fault _)
        · exact absurd hx execInit_ne_fault
      · obtain ⟨i', hi'⟩ := exists_phaseOperation hidle
        obtain rfl : i' = i := Except.ok.inj ((decode_phaseCode _ _ _ hi').symm.trans hd)
        exact ⟨i', hi', hx⟩

/-- The pin of a plan exists, so what is done on it does not fault. -/
theorem onPin_ne_fault (h : PlanLegal s) (g : Fin 26 → State) :
    onPin s.pin.toInt g ≠ .fault f := by
  obtain ⟨j, hj⟩ := exists_pinNumber_of_plan h
  rw [hj, onPin_pinNumber]
  nofun

/-- Each phase's operation finds the word or the pin that it needs. -/
theorem exec_ne_fault (hc : Checked s) (hop : phaseOperation s.phase = some i) :
    exec i s ≠ .fault f := by
  cases hp : s.phase <;> rw [hp] at hop <;> cases hop <;> simp only [Checked, hp] at hc
  case iSetup => exact execInit_ne_fault
  case vPin => rw [Checker.exec_chkPin]; nofun
  case vRep => rw [Checker.exec_chkRep]; nofun
  case vCnt => rw [Checker.exec_chkCnt]; nofun
  case vPar => rw [Checker.exec_chkPar]; nofun
  case vLen =>
    obtain ⟨hscalars, -, hi, -⟩ := hc
    obtain ⟨-, -, hmax⟩ := pulseCount_of_scalars hscalars
    rw [Checker.exec_chkLen s (by omega)]
    nofun
  case vSum =>
    obtain ⟨hscalars, -, hi, -⟩ := hc
    obtain ⟨-, -, hmax⟩ := pulseCount_of_scalars hscalars
    rw [Checker.exec_chkSum s (by omega)]
    nofun
  case eCfg => exact onPin_ne_fault hc _
  case eStamp0 => nofun
  case eHold =>
    obtain ⟨hplan, hi, -⟩ := hc
    rw [exec_engHold_of_plan hplan hi]
    exact onPin_ne_fault hplan _
  case eBudget => nofun
  case eDeassert => exact onPin_ne_fault hc.1 _
  case eStamp1 =>
    rw [exec, execEngStamp1, endTransmission]
    split <;> nofun

end Faults

/-- Settles O55: only the operation of the phase could fault, and its checks have been made. -/
theorem guardedMachineNeverFaults : Obligations.GuardedMachineNeverFaults := by
  intro s f hg hport h
  obtain ⟨i, hop, hx⟩ := step_fault hport h
  have hmoved : Guarded { s with host := s.host.tail } := SameCommand.guarded {} hg
  obtain ⟨-, hc, -⟩ := hmoved
  exact exec_ne_fault hc hop hx

/-! ### The request's pin (R80, R82, R91) -/

section Pin

variable {s t u : State} {p : Phase} {i : Instr} {j : Fin 26}

theorem requestedPin_eq (hj : s.pin.toInt = pinNumber j) : requestedPin s = some s.pins[j] := by
  rw [requestedPin, hj, pinSlot_pinNumber, Option.map_some]

theorem requestedPin_congr (hpin : t.pin = s.pin) (hpins : t.pins = s.pins) :
    requestedPin t = requestedPin s := by
  rw [requestedPin, requestedPin, hpin, hpins]

/-- The phases in which nothing is asked of the pin: no command, `INIT`, the checker, and before
`ENG.CFG`. -/
def pinFree : List Phase :=
  [.idle, .iSetup, .vPin, .vRep, .vCnt, .vPar, .vLen, .vSum, .eCfg]

theorem pinHeld_of_pinFree (hport : s.port = none) (hp : s.phase ∈ pinFree) : PinHeld s := by
  refine ⟨hport, ?_⟩
  cases h : s.phase <;> rw [h] at hp
  case eStamp0 | eHold | eBudget | eDeassert | eStamp1 => simp [pinFree] at hp
  all_goals exact trivial

/-- During a pass and right before it, the pin is an output (R77). -/
theorem pinHeld_iff_output (hp : s.phase = .eStamp0 ∨ s.phase = .eHold) :
    PinHeld s ↔ s.port = none ∧ (requestedPin s).map PinState.mode = some .output := by
  obtain h | h := hp <;> rw [PinHeld, h]

/-- From the end of a pass on, the pin is an output and LOW (R80, R91). -/
theorem pinHeld_iff_low (hp : s.phase = .eBudget ∨ s.phase = .eDeassert ∨ s.phase = .eStamp1) :
    PinHeld s ↔ s.port = none ∧ requestedPin s = some { mode := .output, level := .low } := by
  obtain h | h | h := hp <;> rw [PinHeld, h]

/-- The last pulse of a plan has an odd index, so it is LOW (R64, R80). -/
theorem pulseLevel_last {n : Nat} (h : PlanLegal s) (hn : n + 1 = pulseCount s) :
    pulseLevel n = .low := by
  obtain ⟨hcount, -, -⟩ := pulseCount_of_plan h
  obtain ⟨⟨-, -, -, heven⟩, -⟩ := h
  rw [countEven_iff] at heven
  exact if_neg (by omega)

/-- `Wr` to the request's pin keeps it an output. -/
theorem requestedPin_wr_mode {l : Level} (hj : s.pin.toInt = pinNumber j) (hpin : u.pin = s.pin)
    (hpins : u.pins = (wrPin j l s).pins) :
    (requestedPin u).map PinState.mode = (requestedPin s).map PinState.mode := by
  rw [requestedPin_eq (hpin ▸ hj), requestedPin_eq hj, hpins, Option.map_some, Option.map_some,
    wrPin_mode]

/-- `Wr` to the request's pin, where that is an output, drives it to the level (R115). -/
theorem requestedPin_wr_output {l : Level} (hj : s.pin.toInt = pinNumber j) (hpin : u.pin = s.pin)
    (hpins : u.pins = (wrPin j l s).pins)
    (hout : (requestedPin s).map PinState.mode = some .output) :
    requestedPin u = some { mode := .output, level := l } := by
  rw [requestedPin_eq hj, Option.map_some, Option.some.injEq] at hout
  rw [requestedPin_eq (hpin ▸ hj), hpins, wrPin_output j l s hout]
  simp

theorem exec_init_pinHeld (hpin : PinHeld s) (h : exec .init s = .next u) : PinHeld u := by
  have hport : u.port = none := (exec_frame h).port.trans hpin.1
  obtain ⟨-, -, rfl⟩ | ⟨-, -, rfl⟩ | ⟨-, rfl⟩ := execInit_next _ _ h
  · refine pinHeld_of_pinFree hport ?_
    obtain ⟨-, hx⟩ | ⟨-, hx⟩ | ⟨-, hx⟩ := initStep_cases s <;> simp [hx, pinFree]
  · exact hpin
  · exact pinHeld_of_pinFree hport (by simp [pinFree])

/-- Each phase's operation keeps what is asked of the pin. -/
theorem exec_pinHeld (hc : Checked s) (hpin : PinHeld s) (hp : s.phase = p)
    (hop : phaseOperation p = some i) (h : exec i s = .next u) : PinHeld u := by
  have hf := exec_frame h
  have hport : u.port = none := hf.port.trans hpin.1
  cases p <;> cases hop
  case iSetup => exact exec_init_pinHeld hpin h
  case vPin | vRep | vCnt | vPar | vLen | vSum | eStamp1 =>
    obtain ⟨hidle, -⟩ | ⟨hnext, -⟩ := exec_ends_or_goes_on hp rfl (by decide) h
    · exact pinHeld_of_pinFree hport (by simp [hidle, pinFree])
    · exact pinHeld_of_pinFree hport ((show successors _ ⊆ pinFree by decide) hnext)
  case eCfg =>
    obtain ⟨j, hj, rfl⟩ := execEngCfg_next _ _ h
    rw [pinHeld_iff_output (.inl rfl), requestedPin_eq (j := j) (by simpa using hj)]
    exact ⟨hport, congrArg some (cfgPin_mode j s)⟩
  case eStamp0 =>
    rw [pinHeld_iff_output (.inl hp)] at hpin
    obtain rfl := next_inj h
    rw [pinHeld_iff_output (.inr rfl), requestedPin_congr (s := s) (by simp) (by simp)]
    exact ⟨hport, hpin.2⟩
  case eHold =>
    rw [pinHeld_iff_output (.inr hp)] at hpin
    rw [checked_eHold hp] at hc
    obtain ⟨hplan, hi, -⟩ := hc
    obtain ⟨j, hj, hpins, -, -, ⟨-, hphase, -⟩ | ⟨hlast, hphase, -⟩⟩ := engHold_next hplan hi h
    · rw [pinHeld_iff_output (.inr (hphase.trans hp)), requestedPin_wr_mode hj hf.pin hpins]
      exact ⟨hport, hpin.2⟩
    · rw [pulseLevel_last hplan hlast] at hpins
      rw [pinHeld_iff_low (.inl hphase)]
      exact ⟨hport, requestedPin_wr_output hj hf.pin hpins hpin.2⟩
  case eBudget =>
    rw [pinHeld_iff_low (.inl hp)] at hpin
    obtain ⟨hpins, -, -, ⟨hphase, -⟩ | ⟨-, hphase, -⟩⟩ := engBudget_next h
    · rw [pinHeld_iff_low (.inr (.inl hphase)), requestedPin_congr hf.pin hpins]
      exact ⟨hport, hpin.2⟩
    · rw [pinHeld_iff_output (.inr hphase), requestedPin_congr hf.pin hpins, hpin.2]
      exact ⟨hport, rfl⟩
  case eDeassert =>
    rw [pinHeld_iff_low (.inr (.inl hp))] at hpin
    obtain ⟨j, hj, rfl⟩ := execEngDeassert_next _ _ h
    rw [pinHeld_iff_low (.inr (.inr rfl))]
    exact ⟨hport, requestedPin_wr_output hj (by simp) rfl (by rw [hpin.2]; rfl)⟩

/-- While a command is in flight, what the host does leaves the pin alone; a step of the host's in
`IDLE` leaves the PTD in `IDLE` or starts a `TX`. -/
theorem hostTurn_pinHeld (hf : FlagsCoherent s) (hpin : PinHeld s) (h : hostTurn s = .next t) :
    PinHeld t := by
  obtain ⟨-, rfl⟩ | ⟨us, rest, -, rfl⟩ | ⟨addr, bytes, rest, w, -, rfl⟩ |
    ⟨addr, bytes, v, rest, -, ⟨-, rfl⟩ | ⟨hbusy, off, hst⟩⟩ | ⟨rest, -, hx⟩ | ⟨rest, -, -, rfl⟩ :=
    hostTurn_next h
  · exact hpin
  · exact hpin
  · exact hpin
  · exact hpin
  · obtain ⟨n, r, c, m, rfl⟩ := hostStore_request hst
    exact pinHeld_of_pinFree hpin.1 (by simp [idle_of_not_busy hf hbusy, pinFree])
  · obtain ⟨-, rfl⟩ | ⟨-, -, rfl⟩ := launchTx_next _ _ _ hx
    · exact hpin
    · exact pinHeld_of_pinFree hpin.1 (by simp [pinFree])
  · exact pinHeld_of_pinFree rfl (by simp [resetPtd, pinFree])

end Pin

/-- Settles O54: the phase's operation keeps the pin, a command starts in a phase that asks nothing
of it, and the host leaves it alone. -/
theorem stepKeepsPinHeld : Obligations.StepKeepsPinHeld := by
  intro s t hg hpin h
  obtain ⟨hf, hc, -⟩ := hg
  obtain ⟨w, i, hport, -⟩ | ⟨v, rest, i, hport, -, hb, hd, hx⟩ | ⟨i, u, -, -, hop, hx, rfl⟩ |
    ⟨-, ht, -⟩ := step_next_cases s t h
  · simp [hpin.1] at hport
  · obtain rfl | rfl := decodeCommand_cases hd
    · obtain ⟨hb', -⟩ | ⟨-, -, rfl⟩ := launchTx_next _ _ _ hx
      · simp [hb] at hb'
      · exact pinHeld_of_pinFree hport (by simp [pinFree])
    · exact exec_init_pinHeld (s := { s with host := rest }) hpin hx
  · have hmoved : Checked { s with host := s.host.tail } := (SameCommand.checked_iff {}).mpr hc
    have hu : PinHeld u := exec_pinHeld hmoved hpin rfl hop hx
    exact hu
  · exact hostTurn_pinHeld hf hpin ht

/-! ### The end of a transmission (R83, R91) -/

/-- A step of the undisturbed PTD is the operation of its phase, or time passing in `IDLE`. -/
theorem step_next_of_undisturbed {s t : State} (hu : Undisturbed s) (h : step s = .next t) :
    (∃ i u, phaseOperation s.phase = some i ∧ exec i s = .next u ∧ t = u.spend) ∨
    (s.phase = .idle ∧ t = (s.addTime s.peek).consume 1) := by
  obtain ⟨hport, hhost⟩ := hu
  obtain ⟨w, i, hw, -⟩ | ⟨v, rest, i, -, hh, -⟩ | ⟨i, u, -, -, hop, hx, rfl⟩ |
    ⟨-, ht, ⟨-, hidle⟩ | hmove⟩ := step_next_cases s t h
  · simp [hport] at hw
  · simp [hhost] at hh
  · have hs : { s with host := s.host.tail } = s := by
      rw [hhost]
      exact congrArg (fun l => { s with host := l }) hhost.symm
    exact .inl ⟨i, u, hop, hs ▸ hx, rfl⟩
  · rw [hostTurn, hhost] at ht
    exact .inr ⟨hidle, next_inj ht⟩
  · simp [hhost] at hmove

/-- Settles O56: `ENG.STAMP1` reads the clock and ends the command; the pin was already LOW. -/
theorem transmissionLeavesPinLow : Obligations.TransmissionLeavesPinLow := by
  intro s t hpin hu hp h
  obtain ⟨i, u, hop, hx, rfl⟩ | ⟨hidle, -⟩ := step_next_of_undisturbed hu h
  · rw [hp] at hop
    cases hop
    rw [pinHeld_iff_low (.inr (.inr hp))] at hpin
    obtain ⟨-, rfl⟩ := execEngStamp1_next _ _ hx
    refine ⟨?_, by simp, by simp, by simp, by simp, by simp, by simp⟩
    exact (requestedPin_congr (by simp) (by simp)).trans hpin.2
  · simp [hp] at hidle

end Sys2Proof.Guard

/-! PROOFS. A transmission of a plan, run undisturbed (41_engine.md R85 to R90): a pass plays every
pulse in order, and the machine plays the passes that R90 counts, each with its clock reading, and
then the final LOW. -/

namespace Sys2Proof.Transmission

open Sys2Proof.Machine Sys2Proof.Guard

/-! ### Runs -/

section Runs

variable {s t u : State} {m n : Nat}

/-- A run of more than no steps begins with a step. -/
theorem step_of_run_succ (h : Host.Core.run core (n + 1) s = .next t) :
    ∃ u, step s = .next u ∧ Host.Core.run core n u = .next t := by
  cases hs : step s with
  | next u => exact ⟨u, rfl, (Checker.run_succ_of_step n hs).symm.trans h⟩
  | fault f => simp [Host.Core.run, show core.step s = .fault f from hs] at h
  | refused q => simp [Host.Core.run, show core.step s = .refused q from hs] at h

theorem run_add (h : Host.Core.run core m s = .next t) :
    Host.Core.run core (m + n) s = Host.Core.run core n t := by
  induction m generalizing s with
  | zero =>
    cases h
    rw [Nat.zero_add]
  | succ m ih =>
    obtain ⟨u, hs, hu⟩ := step_of_run_succ h
    rw [Nat.succ_add]
    exact (Checker.run_succ_of_step _ hs).trans (ih hu)

/-- What every step keeps holds at the end of a run. -/
theorem run_keeps {P : State → Prop} (hkeep : ∀ s t, P s → step s = .next t → P t) (hs : P s)
    (h : Host.Core.run core n s = .next t) : P t := by
  induction n generalizing s with
  | zero =>
    cases h
    exact hs
  | succ n ih =>
    obtain ⟨u, hstep, hu⟩ := step_of_run_succ h
    exact ih (hkeep s u hs hstep) hu

/-- The machine runs from `s` to `t`. -/
def Reaches (s t : State) : Prop := ∃ n, Host.Core.run core n s = .next t

theorem Reaches.trans (hst : Reaches s t) (htu : Reaches t u) : Reaches s u := by
  obtain ⟨m, hm⟩ := hst
  obtain ⟨n, hn⟩ := htu
  exact ⟨m + n, (run_add hm).trans hn⟩

/-- One phase of the undisturbed machine. -/
theorem reaches_of_exec {i : Instr} (hu : Undisturbed s) (hop : phaseOperation s.phase = some i)
    (h : exec i s = .next u) : Reaches s u.spend :=
  ⟨1, Checker.run_succ_of_step 0 (Checker.step_of_undisturbed hu hop h)⟩

end Runs

/-! ### The invariants of an undisturbed run -/

/-- Undisturbed, with the checks of its phase made and the pin as the phase asks. -/
def OnTrack (s : State) : Prop := Undisturbed s ∧ Checked s ∧ PinHeld s

theorem step_keeps_onTrack (s t : State) (hs : OnTrack s) (h : step s = .next t) : OnTrack t := by
  obtain ⟨hu, hc, hpin⟩ := hs
  obtain ⟨i, u, hop, hx, rfl⟩ | ⟨hidle, rfl⟩ := step_next_of_undisturbed hu h
  · have hf := StateLaws.exec_frame hx
    have hu' : Undisturbed u := ⟨hf.port.trans hu.1, hf.host.trans hu.2⟩
    have hpin' : PinHeld u := exec_pinHeld hc hpin rfl hop hx
    exact ⟨hu', (SameCommand.checked_iff {}).mpr (exec_checked hc rfl hop hx), hpin'⟩
  · exact ⟨hu, (SameCommand.checked_iff {}).mpr hc, hpin⟩

/-! ### A pass (R84, R86, R89) -/

/-- What a pass leaves as it was, and that no one disturbs it. -/
structure PassFrame (s t : State) : Prop extends SameRequest s t where
  undisturbed : Undisturbed t
  r : t.r = s.r := by simp
  tStart : t.tStart = s.tStart := by simp
  result : t.result = s.result := by simp
  busy : t.busy = s.busy := by simp

section Pass

variable {s t u : State} {j : Fin 26}

theorem PassFrame.trans (hst : PassFrame s t) (htu : PassFrame t u) : PassFrame s u where
  toSameRequest := hst.toSameRequest.trans htu.toSameRequest
  undisturbed := htu.undisturbed
  r := htu.r.trans hst.r
  tStart := htu.tStart.trans hst.tStart
  result := htu.result.trans hst.result
  busy := htu.busy.trans hst.busy

theorem requestPin_eq (hj : s.pin.toInt = pinNumber j) : requestPin s = pinNumber j := by
  rw [requestPin, hj, Int.toNat_natCast]

theorem passEvents_eq (h : SameRequest s t) (n : Nat) : passEvents t n = passEvents s n := by
  induction n with
  | zero => rfl
  | succ n ih => rw [passEvents, passEvents, ih, requestPin, requestPin, h.pin, h.pulseWord_eq]

/-- One pulse of a plan: its two events, and the next index or, after the last, the budget check. -/
theorem step_pulse (hu : Undisturbed s) (hplan : PlanLegal s) (hp : s.phase = .eHold)
    (hi : s.i < pulseCount s) :
    ∃ t, step s = .next t ∧ PassFrame s t ∧
      t.trace = s.trace ++ [.wr (requestPin s) (pulseLevel s.i),
        .dly (pulseWord s s.i).toInt.toNat] ∧
      (s.i + 1 < pulseCount s → t.phase = .eHold ∧ t.i = s.i + 1) ∧
      (s.i + 1 = pulseCount s → t.phase = .eBudget) := by
  obtain ⟨j, hj⟩ := exists_pinNumber_of_plan hplan
  obtain ⟨hcount, -, -⟩ := pulseCount_of_plan hplan
  obtain ⟨l, e, o, n, -, -, hplay⟩ :=
    Engine.playPulse_shape hj (pulseLevel s.i) (pulseWord s s.i).toInt.toNat
  have hx := (exec_engHold_of_plan hplan hi).trans hplay
  refine ⟨_, Checker.step_of_undisturbed hu (by rw [hp]; rfl) hx, { undisturbed := hu }, ?_,
    fun hmore => ?_, fun hlast => ?_⟩
  · rw [requestPin_eq hj]
    rfl
  · have hmore' : (s.i : Int) + 1 < s.count.toInt := by omega
    exact ⟨(if_pos hmore').trans hp, if_pos hmore'⟩
  · have hlast' : ¬((s.i : Int) + 1 < s.count.toInt) := by omega
    exact if_neg hlast'

/-- From pulse `I` of a plan on, with `n` more after it, the pass plays the rest of its pulses. -/
theorem run_pass {τ : List Event} {n : Nat} (hu : Undisturbed s) (hplan : PlanLegal s)
    (hp : s.phase = .eHold) (hn : s.i + n + 1 = pulseCount s)
    (htrace : s.trace = τ ++ passEvents s s.i) :
    ∃ t, Host.Core.run core (n + 1) s = .next t ∧ PassFrame s t ∧ t.phase = .eBudget ∧
      t.trace = τ ++ passEvents s (pulseCount s) := by
  induction n generalizing s with
  | zero =>
    obtain ⟨t, hstep, hframe, htr, -, hlast⟩ := step_pulse hu hplan hp (by omega)
    refine ⟨t, Checker.run_succ_of_step 0 hstep, hframe, hlast hn, ?_⟩
    rw [htr, htrace, ← hn, passEvents, List.append_assoc]
  | succ n ih =>
    obtain ⟨u, hstep, hframe, htr, hmore, -⟩ := step_pulse hu hplan hp (by omega)
    obtain ⟨hphase, hi⟩ := hmore (by omega)
    have hsame := hframe.toSameRequest
    obtain ⟨t, hrun, hframe', hphase', htr'⟩ := ih hframe.undisturbed
      (hsame.planLegal_iff.mpr hplan) hphase
      (by rw [hi, hsame.pulseCount_eq]; omega)
      (by rw [htr, htrace, hi, passEvents_eq hsame, passEvents, List.append_assoc])
    rw [hsame.pulseCount_eq, passEvents_eq hsame] at htr'
    exact ⟨t, (Checker.run_succ_of_step _ hstep).trans hrun, hframe.trans hframe', hphase', htr'⟩

/-- A whole pass of a plan takes one step a pulse. -/
theorem run_whole_pass (hu : Undisturbed s) (hplan : PlanLegal s) (hp : s.phase = .eHold)
    (hi : s.i = 0) :
    ∃ t, Host.Core.run core (pulseCount s) s = .next t ∧ PassFrame s t ∧ t.phase = .eBudget ∧
      t.trace = s.trace ++ passEvents s (pulseCount s) := by
  obtain ⟨-, hpos, -⟩ := pulseCount_of_plan hplan
  obtain ⟨n, hn⟩ := Nat.exists_eq_add_of_le' hpos
  rw [hn]
  have hpass := run_pass hu hplan hp (n := n) (τ := s.trace) (by omega) (by simp [hi, passEvents])
  rwa [hn] at hpass

end Pass

/-- Settles O59: the whole pass, one pulse after the other. -/
theorem passPlaysEveryPulseInOrder : Obligations.PassPlaysEveryPulseInOrder := by
  intro s hu hplan hp hi
  obtain ⟨t, hrun, hframe, hphase, htrace⟩ := run_whole_pass hu hplan hp hi
  exact ⟨t, hrun, hphase, htrace, hframe.r, hframe.tStart, hframe.result, hframe.busy⟩

/-! ### The repeat loop (R81, R85, R90) -/

/-- After pass `j + 1`, with the clock's answer `v`, the transmission that started at `T` stops:
more than 2000 ms have gone by, or all repeats are played (R90, R96). -/
def StopsAt (s : State) (T j v : Nat) : Prop :=
  v > T + 2000 ∨ (j : Int) + 1 = s.repeats.toInt

/-- The transmission of `s₀`'s request, started at `T`, has played a whole pass before each of the
clock's answers `ts` (R89). -/
structure Played (s₀ : State) (T : Nat) (ts : List Nat) (s : State) : Prop
    extends SameRequest s₀ s where
  undisturbed : Undisturbed s
  tStart : s.tStart = T
  r : s.r = ts.length
  trace : s.trace =
    s₀.trace ++ [.cfg (requestPin s₀), .now T] ++ timedPasses s₀ ts

section Loop

variable {s₀ s t u : State} {T : Nat} {ts : List Nat}

/-- `ENG.CFG` and `ENG.STAMP0` of a plan lead to the first pass. -/
theorem reaches_first_pass (hu : Undisturbed s) (hplan : PlanLegal s) (hp : s.phase = .eCfg) :
    ∃ t, Reaches s t ∧ Played s t.tStart [] t ∧ t.phase = .eHold ∧ t.i = 0 := by
  obtain ⟨j, hj⟩ := exists_pinNumber_of_plan hplan
  have hcfg : Reaches s _ := reaches_of_exec hu (by rw [hp]; rfl) (Engine.exec_engCfg hj)
  have hstamp : Reaches (State.spend { cfgPin j s with phase := .eStamp0 }) _ :=
    reaches_of_exec (by simpa [Undisturbed] using hu) rfl rfl
  refine ⟨_, hcfg.trans hstamp, ?_, rfl, rfl⟩
  exact {
    undisturbed := by simpa [Undisturbed] using hu
    tStart := rfl
    r := rfl
    trace := by simp [requestPin_eq hj, timedPasses] }

/-- One more pass and the clock's answer `v` after it, and whether the loop goes on. -/
theorem reaches_next_pass (hplan : PlanLegal s₀) (h : Played s₀ T ts s) (hp : s.phase = .eHold)
    (hi : s.i = 0) :
    ∃ v t, Reaches s t ∧ Played s₀ T (ts ++ [v]) t ∧
      (StopsAt s₀ T ts.length v → t.phase = .eDeassert) ∧
      (¬StopsAt s₀ T ts.length v → t.phase = .eHold ∧ t.i = 0) := by
  obtain ⟨u, hrun, hframe, hphase, htrace⟩ :=
    run_whole_pass h.undisturbed (h.toSameRequest.planLegal_iff.mpr hplan) hp hi
  have hpass : Reaches s u := ⟨_, hrun⟩
  have hbudget : Reaches u _ := reaches_of_exec hframe.undisturbed (by rw [hphase]; rfl) rfl
  have hread : (readClock { u with r := u.r + 1 }).trace = u.trace ++ [.now (clockAnswer u)] :=
    readClock_trace _
  have hsame := h.toSameRequest.trans hframe.toSameRequest
  have hstop : (clockAnswer u > u.tStart + 2000 ∨ ((u.r + 1 : Nat) : Int) = u.repeats.toInt) ↔
      StopsAt s₀ T ts.length (clockAnswer u) := by
    rw [StopsAt, hframe.tStart, h.tStart, hframe.r, h.r, hsame.repeats, Nat.cast_succ]
  refine ⟨clockAnswer u, _, hpass.trans hbudget, ?_, fun hs => ?_, fun hs => ?_⟩
  · exact {
      toSameRequest := hsame.trans {}
      undisturbed := by simpa [Undisturbed] using hframe.undisturbed
      tStart := by simp [hframe.tStart, h.tStart]
      r := by simp [hframe.r, h.r]
      trace := by
        rw [State.spend_trace, afterPass_trace, hread, htrace, h.trace, timedPasses_concat,
          h.toSameRequest.pulseCount_eq, passEvents_eq h.toSameRequest]
        simp only [List.append_assoc] }
  · rw [State.spend_phase, Engine.afterPass_eq, if_pos]
    · simpa using hstop.mpr hs
  · rw [State.spend_phase, State.spend_i, Engine.afterPass_eq, if_neg]
    · simp
    · simpa using hstop.not.mpr hs

theorem getElem?_concat_some {j v w : Nat} (h : (ts ++ [w])[j]? = some v) :
    ts[j]? = some v ∨ (j = ts.length ∧ v = w) := by
  rw [List.getElem?_append] at h
  split at h
  case isTrue => exact .inl h
  case isFalse hj =>
    obtain ⟨hlt, hv⟩ := List.getElem?_eq_some_iff.mp h
    rw [List.length_singleton] at hlt
    exact .inr ⟨by omega, by simpa using hv.symm⟩

/-- Where the loop went on after every pass of `ts`, it goes on or stops after the next. -/
theorem not_stopsAt_concat {v : Nat} (hgo : ∀ j w, ts[j]? = some w → ¬StopsAt s₀ T j w)
    (hv : ¬StopsAt s₀ T ts.length v) :
    ∀ j w, (ts ++ [v])[j]? = some w → ¬StopsAt s₀ T j w := by
  intro j w hj
  obtain hj | ⟨rfl, rfl⟩ := getElem?_concat_some hj
  · exact hgo j w hj
  · exact hv

theorem stopsAt_iff_last {v : Nat} (hgo : ∀ j w, ts[j]? = some w → ¬StopsAt s₀ T j w)
    (hv : StopsAt s₀ T ts.length v) :
    ∀ j w, (ts ++ [v])[j]? = some w → (StopsAt s₀ T j w ↔ j + 1 = (ts ++ [v]).length) := by
  intro j w hj
  rw [List.length_append, List.length_singleton]
  obtain hj | ⟨rfl, rfl⟩ := getElem?_concat_some hj
  · obtain ⟨hlt, -⟩ := List.getElem?_eq_some_iff.mp hj
    exact iff_of_false (hgo j w hj) (by omega)
  · exact iff_of_true hv rfl

/-- With `m` more repeats allowed after the next pass, the loop ends, and only its last pass stops
it. -/
theorem reaches_deassert {m : Nat} (hplan : PlanLegal s₀) (h : Played s₀ T ts s)
    (hp : s.phase = .eHold) (hi : s.i = 0) (hm : (ts.length : Int) + m + 1 = s₀.repeats.toInt)
    (hgo : ∀ j v, ts[j]? = some v → ¬StopsAt s₀ T j v) :
    ∃ t ts', Reaches s t ∧ Played s₀ T ts' t ∧ t.phase = .eDeassert ∧
      ∀ j v, ts'[j]? = some v → (StopsAt s₀ T j v ↔ j + 1 = ts'.length) := by
  induction m generalizing ts s with
  | zero =>
    obtain ⟨v, t, hreach, hplayed, hstop, -⟩ := reaches_next_pass hplan h hp hi
    have hv : StopsAt s₀ T ts.length v := .inr (by omega)
    exact ⟨t, ts ++ [v], hreach, hplayed, hstop hv, stopsAt_iff_last hgo hv⟩
  | succ m ih =>
    obtain ⟨v, u, hreach, hplayed, hstop, hon⟩ := reaches_next_pass hplan h hp hi
    by_cases hv : StopsAt s₀ T ts.length v
    · exact ⟨u, ts ++ [v], hreach, hplayed, hstop hv, stopsAt_iff_last hgo hv⟩
    · obtain ⟨hphase, hi'⟩ := hon hv
      have hm' : ((ts ++ [v]).length : Int) + m + 1 = s₀.repeats.toInt := by
        rw [List.length_append, List.length_singleton]
        omega
      obtain ⟨t, ts', hreach', hend⟩ := ih hplayed hphase hi' hm' (not_stopsAt_concat hgo hv)
      exact ⟨t, ts', hreach.trans hreach', hend⟩

/-- `ENG.DEASSERT` writes the final LOW and leads to the end stamp. -/
theorem reaches_stamp1 (hplan : PlanLegal s₀) (h : Played s₀ T ts s) (hp : s.phase = .eDeassert) :
    ∃ t, Reaches s t ∧ SameRequest s₀ t ∧ t.phase = .eStamp1 ∧ t.r = s.r ∧ t.tStart = T ∧
      t.trace = s.trace ++ [.wr (requestPin s₀) .low] := by
  obtain ⟨j, hj⟩ := exists_pinNumber_of_plan hplan
  have hlow : Reaches s _ := reaches_of_exec h.undisturbed (by rw [hp]; rfl)
    (Engine.exec_engDeassert (j := j) (by rw [h.pin, hj]))
  exact ⟨_, hlow, h.toSameRequest.trans {}, by simp, by simp, by simp [h.tStart],
    by simp [requestPin_eq hj]⟩

theorem passEvents_transitions (n : Nat) :
    (passEvents s n).filter isTransition = passEvents s n := by
  induction n with
  | zero => rfl
  | succ n ih => simp [passEvents, ih, isTransition]

/-- The transition trace of whole passes is the passes without the clock readings (R41, R88). -/
theorem timedPasses_transitions (ts : List Nat) :
    (timedPasses s ts).filter isTransition = passes s ts.length := by
  induction ts using List.reverseRecOn with
  | nil => rfl
  | append_singleton ts v ih =>
    simp [timedPasses_concat, ih, passEvents_transitions, passes, isTransition]

end Loop

/-- Settles O60: the first pass, the repeat loop and the final LOW; what every step keeps gives the
range of `R` and the pin. -/
theorem transmissionPlaysWholePassesThenLow : Obligations.TransmissionPlaysWholePassesThenLow := by
  intro s hu hplan hp
  have htrack : OnTrack s :=
    ⟨hu, by rw [Checked, hp]; exact hplan, pinHeld_of_pinFree hu.1 (by simp [hp, pinFree])⟩
  have hrep := repeats_of_plan hplan
  obtain ⟨a, hfirst, ha, hphase, hi⟩ := reaches_first_pass hu hplan hp
  obtain ⟨b, ts, hloop, hb, hphase', hstops⟩ :=
    reaches_deassert (m := (s.repeats.toInt - 1).toNat) hplan ha hphase hi
      (by simp; omega) (by simp)
  obtain ⟨t, hlow, hsame, hend, hr, hT, htrace⟩ := reaches_stamp1 hplan hb hphase'
  obtain ⟨n, hrun⟩ := (hfirst.trans hloop).trans hlow
  obtain ⟨-, hc, hpin⟩ := run_keeps step_keeps_onTrack htrack hrun
  rw [checked_eStamp1 hend, hsame.repeats] at hc
  rw [pinHeld_iff_low (.inr (.inr hend))] at hpin
  obtain ⟨-, hpos, hmax⟩ := hc
  rw [hb.r] at hr
  rw [hb.trace] at htrace
  refine ⟨n, t, ts, hrun, hend, hr, hpos, hmax, by rw [hT]; exact htrace, ?_, ?_, hpin.2⟩
  · rw [hT, hr]
    exact hstops
  · rw [transitions, transitions, htrace, hr, ← timedPasses_transitions]
    simp [isTransition]

end Sys2Proof.Transmission

/-! PROOFS. Time and the clock of 42_timing.md: what an instruction and the host's turn do to true
time, the clock's answers, the start stamp and the result, and that they keep the clock in order. -/

namespace Sys2Proof.Timing

open Sys2Proof.Machine Sys2Proof.StateLaws Sys2Proof.Guard

/-! ### What only lets time pass (R99) -/

/-- True time may have gone by; the clock's answers, the command and its result are as they were. -/
structure OnlyLater (s t : State) : Prop where
  params : t.params = s.params := by simp
  tus : s.tus ≤ t.tus := by simp
  lastNow : t.lastNow = s.lastNow := by simp
  tStart : t.tStart = s.tStart := by simp
  phase : t.phase = s.phase := by simp
  done : t.done = s.done := by simp
  err : t.err = s.err := by simp
  result : t.result = s.result := by simp

section Later

variable {s t : State}

theorem OnlyLater.never_decreases (h : OnlyLater s t) :
    s.tus ≤ t.tus ∧ (ClockOrdered s → s.lastNow ≤ t.lastNow) :=
  ⟨h.tus, fun _ => h.lastNow.ge⟩

theorem OnlyLater.clockOrdered (h : OnlyLater s t) (hs : ClockOrdered s) : ClockOrdered t := by
  obtain ⟨hnow, hstart, hres⟩ := hs
  rw [ClockOrdered, h.params, h.lastNow, h.tStart, h.phase, h.done, h.err, h.result]
  exact ⟨fun hb => (hnow hb).trans (Nat.div_le_div_right h.tus), hstart, hres⟩

theorem hostTurn_nil (hh : s.host = []) :
    hostTurn s = .next ((s.addTime s.peek).consume 1) := by
  rw [hostTurn, hh]

theorem hostTurn_pass {us : Nat} {rest : List HostMove} (hh : s.host = .pass us :: rest) :
    hostTurn s = .next (State.addTime { s with host := rest } us) := by
  unfold hostTurn
  rw [hh]

/-- The host's turn lets time pass, starts a `TX` of its own (R55), or resets (R155). -/
theorem hostTurn_later (h : hostTurn s = .next t) :
    OnlyLater s t ∨ (∃ rest, exec .txDefault { s with host := rest } = .next t) ∨
    ∃ rest, t = resetPtd { s with host := rest } := by
  obtain ⟨-, rfl⟩ | ⟨us, rest, -, rfl⟩ | ⟨addr, bytes, rest, w, -, rfl⟩ |
    ⟨addr, bytes, v, rest, -, ⟨-, rfl⟩ | ⟨-, off, hst⟩⟩ | ⟨rest, -, hx⟩ | ⟨rest, -, -, rfl⟩ :=
    hostTurn_next h
  · exact .inl {}
  · exact .inl {}
  · exact .inl {}
  · exact .inl {}
  · obtain ⟨p, r, c, m, rfl⟩ := hostStore_request hst
    exact .inl {}
  · exact .inr (.inl ⟨rest, hx⟩)
  · exact .inr (.inr ⟨rest, rfl⟩)

/-- The reset line leaves the clock and true time alone, and ends in `IDLE` with no result. -/
theorem resetPtd_clockOrdered (hs : ClockOrdered s) : ClockOrdered (resetPtd s) :=
  ⟨hs.1, by simp [resetPtd, stamped], by simp [resetPtd]⟩

end Later

/-! ### What every instruction does to the clock, the start stamp and the result -/

/-- The operations that belong between the start stamp and the end stamp: the pulse instructions
and the operations of the stamped phases. -/
def runsStamped : Instr → Bool
  | .holdH _ | .holdL _ | .engHold | .engBudget | .engDeassert | .engStamp1 => true
  | .tx | .init | .txDefault | .setup | .cfg _ | .wr _ _ | .dly _ | .now => false
  | .chkPin | .chkRep | .chkCnt | .chkPar | .chkLen | .chkSum | .engCfg | .engStamp0 => false

/-- True time does not go back, and the clock answers at most once (R98, R99); `ENG.STAMP0` alone
writes `T_START`, its answer (R78); no operation but `ENG.STAMP0` and those of the stamped phases
goes on to a stamped phase; a command that ends without error returns 0 or the elapsed time (R83,
R113). -/
structure ExecClock (i : Instr) (s t : State) : Prop where
  tus : s.tus ≤ t.tus := by simp
  lastNow : t.lastNow = s.lastNow ∨ t.lastNow = clockAnswer s := by simp
  tStart : t.tStart = if i = .engStamp0 then t.lastNow else s.tStart := by simp
  phase : stamped t.phase = false ∨ t.phase = s.phase ∨ i = .engStamp0 ∨ runsStamped i = true := by
    simp [stamped, runsStamped]
  result : (t.done = s.done ∧ t.err = s.err ∧ t.result = s.result) ∨ t.done = false ∨
    t.err = true ∨ t.result = 0 ∨
    (i = .engStamp1 ∧ t.result.toInt = (clockAnswer s : Int) - s.tStart) := by simp

section Clock

variable {s t : State} {i : Instr}

theorem pulse_tus_le (j : Fin 26) (l : Level) (d : Nat) (s : State) :
    s.tus ≤ (pulseSuccessor (delayFor d (wrPin j l s))).tus := by
  rw [pulseSuccessor_tus, delayFor_tus]
  exact (wrPin_tus j l s).1.trans (Nat.le_add_right ..)

/-- An elapsed value that fits a word is what the word holds (R47). -/
theorem toInt_ofInt_of_fitsWord {x : Int} (h : fitsWord x = true) :
    (BitVec.ofInt 32 x).toInt = x := by
  rw [fitsWord_iff] at h
  exact BitVec.toInt_ofInt_eq_self (by decide) h.1 (by omega)

/-- Every instruction that ends in a next state treats the clock so. -/
theorem exec_clock (h : exec i s = .next t) : ExecClock i s t := by
  cases i with
  | tx => obtain ⟨-, rfl⟩ | ⟨-, -, rfl⟩ := launchTx_next _ _ _ h <;> exact {}
  | init =>
    obtain ⟨-, -, rfl⟩ | ⟨-, -, rfl⟩ | ⟨-, rfl⟩ := execInit_next _ _ h
    · obtain ⟨-, hx⟩ | ⟨-, hx⟩ | ⟨-, hx⟩ := initStep_cases s <;> rw [hx] <;> exact {}
    · exact {}
    · exact {}
  | txDefault => obtain ⟨-, rfl⟩ | ⟨-, -, rfl⟩ := launchTx_next _ _ _ h <;> exact {}
  | holdH d => obtain ⟨j, -, rfl⟩ := (playPulse_next ..).mp h; exact { tus := pulse_tus_le .. }
  | holdL d => obtain ⟨j, -, rfl⟩ := (playPulse_next ..).mp h; exact { tus := pulse_tus_le .. }
  | setup => obtain rfl := next_inj h; exact {}
  | cfg p => obtain ⟨j, -, rfl⟩ := (onPin_next ..).mp h; exact { tus := (cfgPin_tus j s).1 }
  | wr p l => obtain ⟨j, -, rfl⟩ := (onPin_next ..).mp h; exact { tus := (wrPin_tus j l s).1 }
  | dly d => obtain rfl := next_inj h; exact {}
  | now => obtain rfl := next_inj h; exact { tus := (readClock_tus s).1 }
  | chkPin => obtain ⟨-, rfl⟩ | ⟨-, rfl⟩ := execChkPin_next _ _ h <;> exact {}
  | chkRep => obtain ⟨-, rfl⟩ | ⟨-, rfl⟩ := execChkRep_next _ _ h <;> exact {}
  | chkCnt => obtain ⟨-, rfl⟩ | ⟨-, rfl⟩ := execChkCnt_next _ _ h <;> exact {}
  | chkPar => obtain ⟨-, rfl⟩ | ⟨-, rfl⟩ := execChkPar_next _ _ h <;> exact {}
  | chkLen => obtain ⟨-, ⟨-, rfl⟩ | ⟨-, rfl⟩⟩ := execChkLen_next _ _ h <;> exact {}
  | chkSum =>
    obtain ⟨-, rfl⟩ := execChkSum_next _ _ h
    obtain ⟨-, hx⟩ | ⟨-, -, hx⟩ | ⟨-, -, hx⟩ := scanOn_cases (s.sum + (pulseWord s s.i).toInt) s <;>
      rw [hx] <;> exact {}
  | engCfg => obtain ⟨j, -, rfl⟩ := execEngCfg_next _ _ h; exact { tus := (cfgPin_tus j s).1 }
  | engStamp0 => obtain rfl := next_inj h; exact { tus := (readClock_tus s).1 }
  | engHold =>
    obtain ⟨-, l, d, j, -, -, rfl⟩ := execEngHold_next _ _ h
    exact { tus := pulse_tus_le .. }
  | engBudget =>
    obtain rfl := execEngBudget_next _ _ h
    have htus := (readClock_tus { s with r := s.r + 1 }).1
    exact { tus := by rwa [afterPass_tus], lastNow := .inr (afterPass_lastNow ..) }
  | engDeassert =>
    obtain ⟨j, -, rfl⟩ := execEngDeassert_next _ _ h
    exact { tus := (wrPin_tus j .low s).1 }
  | engStamp1 =>
    obtain ⟨hfits, rfl⟩ := execEngStamp1_next _ _ h
    have helapsed := toInt_ofInt_of_fitsWord hfits
    exact { tus := (readClock_tus s).1, result := by simp [helapsed] }

theorem ExecClock.lastNow_le (h : ExecClock i s t) (hs : ClockOrdered s) :
    s.lastNow ≤ t.lastNow := by
  obtain hx | hx := h.lastNow
  · exact hx.ge
  · exact hx ▸ clockAnswer_ge s hs.1

theorem exec_never_decreases (h : exec i s = .next t) :
    s.tus ≤ t.tus ∧ (ClockOrdered s → s.lastNow ≤ t.lastNow) :=
  ⟨(exec_clock h).tus, (exec_clock h).lastNow_le⟩

/-- An instruction keeps the clock in order, where the operations of the stamped phases run in a
stamped phase. -/
theorem exec_clockOrdered (hs : ClockOrdered s) (hop : runsStamped i = true → stamped s.phase = true)
    (h : exec i s = .next t) : ClockOrdered t := by
  have hc := exec_clock h
  have hle : s.lastNow ≤ t.lastNow := hc.lastNow_le hs
  have hanswer : s.lastNow ≤ clockAnswer s := clockAnswer_ge s hs.1
  obtain ⟨hnow, hstart, hres⟩ := hs
  refine ⟨fun hb => ?_, fun hstamped => ?_, fun hd he => ?_⟩
  · rw [(exec_frame h).params] at hb
    have hlast : t.lastNow ≤ s.tus / 1000 := by
      obtain hx | hx := hc.lastNow <;> rw [hx]
      · exact hnow hb
      · exact ((clockAnswer_law s).2 hb).le
    exact hlast.trans (Nat.div_le_div_right hc.tus)
  · rw [hc.tStart]
    split
    case isTrue => exact le_rfl
    case isFalse hi =>
      have hphase : stamped s.phase = true := by
        obtain hx | hx | hx | hx := hc.phase
        · simp [hx] at hstamped
        · exact hx ▸ hstamped
        · exact absurd hx hi
        · exact hop hx
      exact (hstart hphase).trans hle
  · obtain ⟨hd', he', hr⟩ | hx | hx | hx | ⟨rfl, hr⟩ := hc.result
    · exact hr ▸ hres (hd' ▸ hd) (he' ▸ he)
    · simp [hx] at hd
    · simp [hx] at he
    · simp [hx]
    · have := hstart (hop rfl)
      omega

/-- Of the phases' operations, these are the ones of the stamped phases (R12). -/
theorem stamped_of_phaseOperation {p : Phase} (hop : phaseOperation p = some i)
    (hi : runsStamped i = true) : stamped p = true := by
  cases p <;> cases hop
  case eHold | eBudget | eDeassert | eStamp1 => rfl
  all_goals cases hi

theorem not_runsStamped_of_primitive {k : PortCodes} {w : PortWord}
    (hd : decodePrimitive k w = .ok i) : ¬runsStamped i = true := by
  obtain rfl | ⟨p, rfl⟩ | ⟨p, l, rfl⟩ | ⟨d, rfl⟩ | rfl := decodePrimitive_cases hd <;>
    exact Bool.false_ne_true

theorem not_runsStamped_of_command {v : Word} (hd : decodeCommand v = .ok i) :
    ¬runsStamped i = true := by
  obtain rfl | rfl := decodeCommand_cases hd <;> exact Bool.false_ne_true

end Clock

/-! ### The obligations -/

/-- Settles O53: an instruction keeps the clock in order where it is fetched, and the rest of a step
only lets time pass. -/
theorem stepKeepsClockOrdered : Obligations.StepKeepsClockOrdered := by
  intro s t hs h
  obtain ⟨w, i, -, hd, hx⟩ | ⟨v, rest, i, -, -, -, hd, hx⟩ | ⟨i, u, -, -, hop, hx, rfl⟩ |
    ⟨-, ht, -⟩ := step_next_cases s t h
  · exact exec_clockOrdered (s := { s with port := none }) hs
      (absurd · (not_runsStamped_of_primitive hd)) hx
  · exact exec_clockOrdered (s := { s with host := rest }) hs
      (absurd · (not_runsStamped_of_command hd)) hx
  · have hu : ClockOrdered u := exec_clockOrdered (s := { s with host := s.host.tail }) hs
      (stamped_of_phaseOperation hop) hx
    exact OnlyLater.clockOrdered {} hu
  · obtain hlater | ⟨rest, hx⟩ | ⟨rest, rfl⟩ := hostTurn_later ht
    · exact hlater.clockOrdered hs
    · exact exec_clockOrdered (s := { s with host := rest }) hs (by simp [runsStamped]) hx
    · exact resetPtd_clockOrdered (s := { s with host := rest }) hs

/-- Settles O41: no instruction and no move of the host takes time or the clock back. -/
theorem timeNeverDecreases : Obligations.TimeNeverDecreases := by
  intro s t h
  obtain ⟨w, i, -, -, hx⟩ | ⟨v, rest, i, -, -, -, -, hx⟩ | ⟨i, u, -, -, -, hx, rfl⟩ | ⟨-, ht, -⟩ :=
    step_next_cases s t h
  · exact exec_never_decreases (s := { s with port := none }) hx
  · exact exec_never_decreases (s := { s with host := rest }) hx
  · obtain ⟨htus, hnow⟩ := exec_never_decreases hx
    exact ⟨htus.trans (Nat.le_add_right ..), hnow⟩
  · obtain hlater | ⟨rest, hx⟩ | ⟨rest, rfl⟩ := hostTurn_later ht
    · exact hlater.never_decreases
    · exact exec_never_decreases (s := { s with host := rest }) hx
    · exact ⟨le_rfl, fun _ => le_rfl⟩

/-- Settles O6: nothing is fetched in `IDLE`, so the step is the host's turn. -/
theorem idleOnlyLetsTimePass : Obligations.IdleOnlyLetsTimePass := by
  intro s hport hidle
  have hturn (hh : s.host = [] ∨ ∃ us rest, s.host = .pass us :: rest) : step s = hostTurn s :=
    step_turn s (by rw [fetchedCode_quiet s hport hh, phaseFetch, if_pos hidle])
  refine ⟨fun hh => ⟨s.peek, s.oracle.drop 1, s.drawn + 1, ?_⟩, fun us rest hh => ?_⟩
  · exact (hturn (.inl hh)).trans (hostTurn_nil hh)
  · exact (hturn (.inr ⟨us, rest, hh⟩)).trans (hostTurn_pass hh)

end Sys2Proof.Timing

/-! PROOFS. The interfaces of 43_interfaces.md: the two commands of the host and the five primitives
of the GPIO collaborator. -/

namespace Sys2Proof.Interfaces

open Sys2Proof.Machine Sys2Proof.StateLaws Sys2Proof.MemoryMap Sys2Proof.Encoding

/-! ### The commands (R110, R112, R113) -/

section Commands

variable {s : State} {rest : List HostMove}

/-- A 1 written to `CTRL` while `BUSY` = 0 is the command `TX` (R49). -/
theorem step_tx (hp : s.port = none)
    (hh : s.host = .write (s.params.base + Config.offCtrl) 4 1 :: rest) (hb : s.busy = false) :
    step s = launchTx { s with host := rest } { s with host := rest } :=
  stepRunsDecodedInstruction.2.1 s 1 rest .tx hp hh hb rfl

/-- A `CTRL` write stores nothing, and while `BUSY` = 1 it starts nothing (R37). -/
theorem step_ctrl_busy {v : Word} (hp : s.port = none)
    (hh : s.host = .write (s.params.base + Config.offCtrl) 4 v :: rest) (hb : s.busy = true) :
    step s = .next { s with host := rest } := by
  rw [step_write hp hh (by simp [hb])]
  exact hostWrite_busy (s := { s with host := rest }) hb rfl

theorem exec_init_idle (hb : s.busy = false) : exec .init s = .next (s.start .iSetup) :=
  if_neg (by simp [hb])

theorem exec_init_inFlight (hb : s.busy = true) (hp : s.phase ≠ .iSetup) :
    exec .init s = .next s := by
  rw [exec, execInit, if_pos hb, if_neg hp]

theorem exec_init_internal (hb : s.busy = true) (hp : s.phase = .iSetup) :
    exec .init s = .next (initStep s) := by
  rw [exec, execInit, if_pos hb, if_pos hp]

/-- After the first `INIT`, its internal step ends the command and keeps `INITST`. -/
theorem initStep_initialised (h : s.initst ≠ .uninit) : initStep s = endInit s.initst s := by
  obtain ⟨hi, -⟩ | ⟨hi, hend⟩ | ⟨hi, hend⟩ := initStep_cases s
  · exact absurd hi h
  all_goals rw [hend, hi]

theorem initStep_uninit (h : s.initst = .uninit) :
    initStep s = endInit (initStateOf (setupAnswer s)) (runSetup s) := by
  rw [initStep, h]

theorem initStateOf_eq (a : SetupAnswer) : initStateOf a = if a = .ok then .ready else .fatal := by
  cases a <;> rfl

theorem initStateOf_eq_fatal_iff (a : SetupAnswer) : initStateOf a = .fatal ↔ a = .error := by
  cases a <;> decide

end Commands

/-! ### The obligations -/

/-- Settles O10: the start of a command, in the first phase of the checker. -/
theorem txCommandStarts : Obligations.TxCommandStarts :=
  fun _ => launchTx_ready _

/-- Settles O9: with `BUSY` = 1 no command is fetched; otherwise `TX` is started or refused. -/
theorem txStartsOnlyWhenReadyAndIdle : Obligations.TxStartsOnlyWhenReadyAndIdle :=
  fun _ _ hp hh => ⟨step_ctrl_busy hp hh,
    fun hb hi => (step_tx hp hh hb).trans (launchTx_notReady _ hb hi),
    fun hb hi => (step_tx hp hh hb).trans (launchTx_ready _ hb hi)⟩

/-- Settles O12: the three branches of `INIT`; the internal step rewrites `INITST` with itself. -/
theorem initStartsAndIsIdempotent : Obligations.InitStartsAndIsIdempotent := by
  refine ⟨fun s => exec_init_idle, fun s => exec_init_inFlight, fun s hb hp hi => ?_⟩
  rw [exec_init_internal hb hp, initStep_initialised hi]
  rfl

/-- Settles O13: one call of `Setup()`, then the end of the command with its answer recorded. -/
theorem initFromUninitCallsSetup : Obligations.InitFromUninitCallsSetup := by
  intro s hb hp hi
  refine ⟨setupAnswer s, (runSetup s).pins, s.drawAt 2, (runSetup s).oracle, (runSetup s).drawn, ?_⟩
  rw [exec_init_internal hb hp, initStep_uninit hi, ← initStateOf_eq,
    ← decide_eq_decide.mpr (initStateOf_eq_fatal_iff _)]
  rfl

/-- Settles O14: `Cfg` of the pin the operand names. -/
theorem cfgMakesPinOutput : Obligations.CfgMakesPinOutput := by
  intro s p j hj
  obtain ⟨l, e, o, n, he, hl, hcfg⟩ := cfgPin_shape j s
  exact ⟨l, e, o, n, he, hl, by rw [exec, execCfg, hj, onPin_pinNumber, hcfg]⟩

/-- Settles O15: `Wr` to the pin the operand names. -/
theorem wrDrivesPin : Obligations.WrDrivesPin := by
  intro s p l j hj
  obtain ⟨l', e, o, n, he, hl, hwr⟩ := wrPin_shape j l s
  exact ⟨l', e, o, n, he, hl, by rw [exec, execWr, hj, onPin_pinNumber, hwr]⟩

/-- Settles O16: `Dly` of the operand. -/
theorem dlyWaitsAtLeastItsDuration : Obligations.DlyWaitsAtLeastItsDuration := by
  intro s d
  obtain ⟨e, o, n, he, hdly⟩ := delayFor_shape d.toNat s
  exact ⟨e, o, n, he, by rw [exec, execDly, hdly]⟩

/-- Settles O17: one reading of the clock, whose answer obeys its level's law. -/
theorem nowAnswersTheClock : Obligations.NowAnswersTheClock := by
  intro s
  obtain ⟨hlevelA, hlevelB⟩ := clockAnswer_law s
  obtain ⟨e, o, n, he, hread⟩ := readClock_shape s
  exact ⟨clockAnswer s, e, o, n, he, hlevelA, hlevelB, by rw [exec, execNow, hread]⟩

/-- Settles O18: one call of `Setup()`; the answer, the pins and the duration are its draws. -/
theorem setupAnswersOkOrError : Obligations.SetupAnswersOkOrError :=
  fun s => ⟨setupAnswer s, (runSetup s).pins, s.drawAt 2, _, _, rfl⟩

end Sys2Proof.Interfaces

/-! PROOFS. The errors of 60_exceptions.md: what each instruction returns to the host, the codes an
error can leave in `RESULT`, and that no step changes a parameter. -/

namespace Sys2Proof.Errors

open Sys2Proof.Machine Sys2Proof.StateLaws Sys2Proof.Checker Sys2Proof.Timing

/-! ### What every instruction returns -/

/-- Nothing is returned: `RESULT` and `RCOUNT` are as they were, and neither error flag is newly
set (the start of a command clears both, R110). -/
structure NothingReturned (s t : State) : Prop where
  err : t.err = true → s.err = true := by simp
  cfault : t.cfault = true → s.cfault = true := by simp
  result : t.result = s.result := by simp
  rcount : t.rcount = s.rcount := by simp

/-- What an instruction can return: nothing; the code of an error, which a check alone raises and
which is never `Unknown` (R137, R152); the 0 of `INIT` (R113); or the elapsed time of a transmission
(R83). -/
inductive Returned (i : Instr) (s t : State) : Prop where
  | nothing (h : NothingReturned s t)
  | error (hi : i ∈ checks) (k : ErrorKind) (hk : k ≠ .unknown)
      (hresult : t.result = errCode s.params.errCodes k)
  | initialised (hi : i = .init) (hresult : t.result = 0)
  | elapsed (hi : i = .engStamp1) (herr : t.err = false) (hcfault : t.cfault = false)
      (hresult : t.result.toInt = (clockAnswer s : Int) - s.tStart)

section Returns

variable {s t : State} {i : Instr}

theorem initStep_result (s : State) : (initStep s).result = 0 := by
  obtain ⟨-, h⟩ | ⟨-, h⟩ | ⟨-, h⟩ := initStep_cases s <;> rw [h] <;> rfl

theorem playPulse_returns_nothing {l : Level} {d : Nat} (h : playPulse l d s = .next t) :
    NothingReturned s t := by
  obtain ⟨j, -, rfl⟩ := (playPulse_next ..).mp h
  exact {}

/-- Every instruction that ends in a next state returns so. -/
theorem exec_returned (h : exec i s = .next t) : Returned i s t := by
  cases i with
  | tx => obtain ⟨-, rfl⟩ | ⟨-, -, rfl⟩ := launchTx_next _ _ _ h <;> exact .nothing {}
  | init =>
    obtain ⟨-, -, rfl⟩ | ⟨-, -, rfl⟩ | ⟨-, rfl⟩ := execInit_next _ _ h
    · exact .initialised rfl (initStep_result s)
    · exact .nothing {}
    · exact .nothing {}
  | txDefault => obtain ⟨-, rfl⟩ | ⟨-, -, rfl⟩ := launchTx_next _ _ _ h <;> exact .nothing {}
  | holdH d => exact .nothing (playPulse_returns_nothing h)
  | holdL d => exact .nothing (playPulse_returns_nothing h)
  | setup => obtain rfl := next_inj h; exact .nothing {}
  | cfg p => obtain ⟨j, -, rfl⟩ := (onPin_next ..).mp h; exact .nothing {}
  | wr p l => obtain ⟨j, -, rfl⟩ := (onPin_next ..).mp h; exact .nothing {}
  | dly d => obtain rfl := next_inj h; exact .nothing {}
  | now => obtain rfl := next_inj h; exact .nothing {}
  | chkPin =>
    obtain ⟨-, rfl⟩ | ⟨-, rfl⟩ := execChkPin_next _ _ h
    · exact .nothing {}
    · exact .error (by decide) .invalidGpio (by decide) rfl
  | chkRep =>
    obtain ⟨-, rfl⟩ | ⟨-, rfl⟩ := execChkRep_next _ _ h
    · exact .nothing {}
    · exact .error (by decide) .invalidRepeats (by decide) rfl
  | chkCnt =>
    obtain ⟨-, rfl⟩ | ⟨-, rfl⟩ := execChkCnt_next _ _ h
    · exact .nothing {}
    · exact .error (by decide) .invalidPulseCount (by decide) rfl
  | chkPar =>
    obtain ⟨-, rfl⟩ | ⟨-, rfl⟩ := execChkPar_next _ _ h
    · exact .nothing {}
    · exact .error (by decide) .pulseTrainOdd (by decide) rfl
  | chkLen =>
    obtain ⟨-, ⟨-, rfl⟩ | ⟨-, rfl⟩⟩ := execChkLen_next _ _ h
    · exact .nothing {}
    · exact .error (by decide) .invalidPulseLength (by decide) rfl
  | chkSum =>
    obtain ⟨-, rfl⟩ := execChkSum_next _ _ h
    obtain ⟨-, hx⟩ | ⟨-, -, hx⟩ | ⟨-, -, hx⟩ := scanOn_cases (s.sum + (pulseWord s s.i).toInt) s <;>
      rw [hx]
    · exact .error (by decide) .invalidTxTime (by decide) rfl
    · exact .nothing {}
    · exact .nothing {}
  | engCfg => obtain ⟨j, -, rfl⟩ := execEngCfg_next _ _ h; exact .nothing {}
  | engStamp0 => obtain rfl := next_inj h; exact .nothing {}
  | engHold => obtain ⟨-, l, d, j, -, -, rfl⟩ := execEngHold_next _ _ h; exact .nothing {}
  | engBudget => obtain rfl := execEngBudget_next _ _ h; exact .nothing {}
  | engDeassert => obtain ⟨j, -, rfl⟩ := execEngDeassert_next _ _ h; exact .nothing {}
  | engStamp1 =>
    obtain ⟨hfits, rfl⟩ := execEngStamp1_next _ _ h
    exact .elapsed rfl rfl rfl (toInt_ofInt_of_fitsWord hfits)

end Returns

/-! ### The parameters -/

section Parameters

variable {s t : State}

/-- The host's turn writes no parameter. -/
theorem hostTurn_params (h : hostTurn s = .next t) : t.params = s.params := by
  obtain hlater | ⟨rest, hx⟩ | ⟨rest, rfl⟩ := hostTurn_later h
  · exact hlater.params
  · exact (exec_frame hx).params
  · rfl

/-- No step writes a parameter (R5). -/
theorem step_params (h : step s = .next t) : t.params = s.params := by
  obtain ⟨w, i, -, -, hx⟩ | ⟨v, rest, i, -, -, -, -, hx⟩ | ⟨i, u, -, -, -, hx, rfl⟩ | ⟨-, ht, -⟩ :=
    step_next_cases s t h
  · exact (exec_frame hx).params
  · exact (exec_frame hx).params
  · exact (exec_frame hx).params
  · exact hostTurn_params ht

theorem reset_params_legal : ParamsLegal State.reset.params :=
  ⟨rfl, errCodes_legal, portCodes_legal⟩

end Parameters

/-! ### The obligations -/

/-- Settles O36: what is left, without the checks and `INIT`, is to return nothing or, for
`ENG.STAMP1`, the elapsed time with both error flags clear. -/
theorem onlyTheCheckerRaisesErrors : Obligations.OnlyTheCheckerRaisesErrors := by
  intro i s t h hi
  cases exec_returned h with
  | nothing hn => exact ⟨hn.err, hn.cfault, fun _ => ⟨hn.result, hn.rcount⟩⟩
  | error hcheck =>
    have hlisted : i ∈ checks ++ [.init] := List.mem_append_left _ hcheck
    exact absurd hlisted hi
  | initialised hinit => simp [hinit] at hi
  | elapsed hstamp herr hcfault => simp [hstamp, herr, hcfault]

/-- Settles O39: a check raises another kind, whose code is distinct; the other values returned are
not negative. -/
theorem unknownIsNeverRaised : Obligations.UnknownIsNeverRaised := by
  intro i s t h ⟨hnegative, hdistinct⟩ hstart hs hunknown
  have hneg : t.result.toInt < 0 := hunknown ▸ hnegative .unknown
  cases exec_returned h with
  | nothing hn => exact hs (hn.result ▸ hunknown)
  | error _ k hk hresult => exact hk (hdistinct _ _ (hresult ▸ hunknown))
  | initialised _ hresult => simp [hresult] at hneg
  | elapsed _ _ _ hresult => omega

/-- Settles O38: the parameters at reset are the ones taken, and no step writes one. -/
theorem errorCodesNegativeAndDistinct : Obligations.ErrorCodesNegativeAndDistinct :=
  ⟨reset_params_legal, rfl, fun _ _ => step_params⟩

end Sys2Proof.Errors
